-- ==== Sys2Proof/Word.lean ====
section
/-! DEFINITION. The two word types of the block: a byte of frame memory and a 32-bit register
(00_scope.md R6, R7). -/

namespace Sys2Proof

/-- One byte of frame memory, and the width of a result code (R6, R9). -/
abbrev Byte := BitVec 8

/-- One register, argument or frame-memory address (R6). -/
abbrev Word := BitVec 32

end Sys2Proof
end

