-- ==== Sys2Proof/Syntax.lean ====
section
/-! DEFINITION. The commands of the block, one constructor per row of spec/opcode_table.json, and
the reasons a word spells none (30_encoding.md R59, R60). -/

namespace Sys2Proof

/-- A decoded command. Operands that do not fit in the word are read from the command latch when the
command executes (30_encoding.md R57, R58), so only the field `KS` stands here. -/
inductive Instr where
  /-- `CONFIGURE`, opcode 0x01; `ks` is the unsigned 2-bit field `KS`, 0..3 (R58). -/
  | configure (ks : Nat)
  /-- `SET_GEOMETRY`, opcode 0x02. -/
  | setGeometry
  /-- `PROCESS_FRAME`, opcode 0x03. -/
  | processFrame
  deriving DecidableEq, Repr

/-- Why a word decodes as `ILLEGAL` (30_encoding.md R60). All three complete with result 0x01. -/
inductive Illegal where
  /-- The opcode is 0x00 or one of 0x04..0xFF. -/
  | reservedOpcode
  /-- A bit of `RSV`, bits 31:10, is set under opcode 0x01, 0x02 or 0x03. -/
  | reservedBits
  /-- `KS` is not 0 under opcode 0x02 or 0x03. -/
  | kernelSizeField
  deriving DecidableEq, Repr

end Sys2Proof
end

