-- ==== Sys2Proof/WellFormed.lean ====
section
/-! DEFINITION. Which command terms the format `CMDW` can spell (30_encoding.md R57). -/

namespace Sys2Proof

/-- The operand fits its field: `KS` is two bits wide, and 3 is a spellable (though later rejected)
value (30_encoding.md R58, R61). The other commands have no operand in the word. -/
def Instr.wellFormed : Instr → Bool
  | .configure ks => decide (ks < 4)
  | .setGeometry => true
  | .processFrame => true

end Sys2Proof
end

