-- ==== Sys2Proof/Decode.lean ====
section
/-! DEFINITION. The format `CMDW`: the decoder, total on all 2^32 words, and the encoder, both written
from the opcode map of 30_encoding.md R57 and R59. -/

namespace Sys2Proof

/-- `OP`, bits 7:0 (R57). -/
def opField (w : Word) : BitVec 8 := w.extractLsb' 0 8

/-- `KS`, bits 9:8 (R57). -/
def ksField (w : Word) : BitVec 2 := w.extractLsb' 8 2

/-- `RSV`, bits 31:10 (R57). -/
def rsvField (w : Word) : BitVec 22 := w.extractLsb' 10 22

/-- What a command word spells (R59), or by name why it spells nothing (R60). -/
def decode (w : Word) : Except Illegal Instr :=
  if opField w = 0x01#8 then
    if rsvField w = 0 then .ok (.configure (ksField w).toNat) else .error .reservedBits
  else if opField w = 0x02#8 then
    if rsvField w ≠ 0 then .error .reservedBits
    else if ksField w ≠ 0 then .error .kernelSizeField
    else .ok .setGeometry
  else if opField w = 0x03#8 then
    if rsvField w ≠ 0 then .error .reservedBits
    else if ksField w ≠ 0 then .error .kernelSizeField
    else .ok .processFrame
  else .error .reservedOpcode

/-- Assembles `{RSV, KS, OP}` (R57). -/
def assemble (rsv : BitVec 22) (ks : BitVec 2) (op : BitVec 8) : Word := rsv ++ ks ++ op

/-- The command word of a command: `RSV` is 0, and `KS` is 0 but in `CONFIGURE` (R57, R59). -/
def encode : Instr → Word
  | .configure ks => assemble 0 (BitVec.ofNat 2 ks) 0x01#8
  | .setGeometry => assemble 0 0 0x02#8
  | .processFrame => assemble 0 0 0x03#8

/-- The host's view of the decoder: every command is one 32-bit word (R57), so the bits above `nbits`
are 0 and the decoder reads the word that is left. -/
def decodeTableWord (nbits w : Nat) : Option Instr :=
  match decode (BitVec.ofNat 32 (w % 2 ^ nbits)) with
  | .ok i => some i
  | .error _ => none

end Sys2Proof
end

