-- ==== Sys2Proof/Config.lean ====
section
/-! DEFINITION. What is fixed for this block (00_scope.md R6) and the values the spec leaves open, as
constants without a body (93_implementation_defined.md section 1). -/

namespace Sys2Proof.Config

/-- Bytes per pixel, `CHANNELS` (R6). -/
def channels : Nat := 3

/-- The constant the `ID` register reads as, "GCGB" (10_state.md R17). -/
def identifier : Word := 0x47434742#32

/-- One past the highest frame-memory address (10_state.md R34(b)). -/
def memorySize : Nat := 2 ^ 32

/-- Bytes of the register window (R6, 20_memory.md R50). -/
def registerWindow : Nat := 256

/-- `P_RESET_KSIZE`, at the default the spec gives it (R6, 10_state.md R36; log 18). -/
def resetKsize : BitVec 2 := 0#2

/-- `P_RESET_SIGMA`, binary32 1.0, at the default the spec gives it (R6, 10_state.md R36; log 18). -/
def resetSigma : Word := 0x3F800000#32

/-- What a byte of frame memory reads as while nothing has written it.
DESIGN CHOICE, unsafe: the spec gives frame memory no contents at power-on (log 3). -/
def unwritten : Byte := 0x00#8

/-- FREE VALUE. The byte drawn at an address in draw number `n`: the unspecified bytes of U2, U3, U5,
U6, U7 and U8 (log 5). -/
opaque freeByte : Nat → Nat → Byte

/-- FREE VALUE. Draw number `n` of a choice between the value before a running command and the value
after it, U1 (20_memory.md R44; log 17). -/
opaque freeBit : Nat → Bool

/-- FREE VALUE. Which of the two roundings the exponential takes at an operand where the bracket of
Machine/Exp.lean does not single one out (log 14). -/
opaque expTakesUpper : Nat → Bool

/-- FREE VALUE. The bit pattern a NaN is stored as; no reachable state stores one (log 15). -/
opaque nanPattern : BitVec 64

/-- FREE VALUE. The integer a NaN accumulator rounds to; no reachable state has one (log 15). -/
opaque nanRounds : Int

end Sys2Proof.Config
end

