-- ==== Sys2Proof/Machine/State.lean ====
section
/-! DEFINITION. Everything the spec gives the machine (10_state.md), as plain data, with the model's own
fields for the outside world; the reasons a step may stop; the state right after reset. -/

namespace Sys2Proof.Machine

/-- Frame memory: (address, byte) pairs, addresses strictly rising, no entry equal to what an unlisted
address reads as (`Memory.wf`). -/
abbrev Memory := List Host.Cell

/-- The command latch `CMD_L`, `ARG_L[0..2]` (10_state.md R29). -/
structure Latch where
  cmd : Word
  arg0 : Word
  arg1 : Word
  arg2 : Word
  deriving DecidableEq, Repr

/-- One access by the host (00_scope.md R4, R9; 20_memory.md R37; 10_state.md R34). -/
inductive HostAccess where
  /-- `RegRead(off)`, with the byte enables the transaction carries. -/
  | regRead (off : BitVec 8) (enables : BitVec 4)
  /-- `RegWrite(off, v)`, with the byte enables the transaction carries. -/
  | regWrite (off : BitVec 8) (v : Word) (enables : BitVec 4)
  /-- The host reads a byte of frame memory by its own path. -/
  | memRead (addr : Word)
  /-- The host writes a byte of frame memory by its own path. -/
  | memWrite (addr : Word) (v : Byte)
  deriving DecidableEq, Repr

/-- One move of the outside world or of the engine. The engine's turn completes the command in the
latch; how many host turns stand before it is `P_LATENCY` (70_reset_and_hazards.md R123; log 1). -/
inductive Turn where
  | host (access : HostAccess)
  | engine
  | assertReset
  | releaseReset
  deriving DecidableEq, Repr

/-- The answer to the last host access (20_memory.md R37; log 13). -/
inductive Reply where
  /-- No access yet. -/
  | none
  /-- A write was taken. -/
  | done
  /-- The error response of an illegal register transaction. -/
  | error
  /-- The word a register read returned. -/
  | word (v : Word)
  /-- The byte a frame-memory read returned. -/
  | byte (v : Byte)
  deriving DecidableEq, Repr

/-- A stretch of the address space that is not plain memory (70_reset_and_hazards.md R121 H-3). -/
structure Range where
  base : Nat
  size : Nat
  deriving DecidableEq, Repr

/-- The environment, which no rule of the block decides. -/
structure Env where
  /-- `P_MEM_ERROR`: the memory port's accesses that get an error response, numbered from 0 (R95; log 6). -/
  memErrors : List Nat
  /-- How many accesses the memory port has been asked for so far (log 6). -/
  accesses : Nat
  /-- `P_HOST_ORDER`: the host's frame writes are visible before its later `CMD` write (R52; log 7). -/
  hostOrder : Bool
  /-- Where the platform has device registers or memory that changes by itself (H-3; log 8). -/
  devices : List Range
  /-- `P_REG_BASE`: the host address of the register window (20_memory.md R50, 60_exceptions.md R114;
  log 19). -/
  regBase : Nat
  deriving DecidableEq, Repr

/-- The machine. The first group is the register map (10_state.md section 2), field by field; the second
is the state outside it; the third is the model's own. -/
structure State where
  /-- `CTRL.IRQ_EN` (R18). -/
  irqEn : Bool
  /-- `STATUS.BUSY` (R19). -/
  busy : Bool
  /-- `STATUS.DIRTY` (R19, R32). -/
  dirty : Bool
  /-- `STATUS.KERNEL_VALID` (R19). -/
  kernelValid : Bool
  /-- `STATUS.GEOM_VALID` (R19). -/
  geomValid : Bool
  /-- `STATUS.RESULT` (R19, R101). -/
  result : Byte
  /-- `EVENTS.DONE` (R20). -/
  done : Bool
  /-- `EVENTS.OVERRUN` (R20). -/
  overrun : Bool
  /-- `ARG0` (R22). -/
  arg0 : Word
  /-- `ARG1` (R22). -/
  arg1 : Word
  /-- `ARG2` (R22). -/
  arg2 : Word
  /-- `KSIZE[1:0]` (R23). -/
  ksize : BitVec 2
  /-- `SIGMA` (R24). -/
  sigma : Word
  /-- `WIDTH[15:0]` (R25). -/
  width : BitVec 16
  /-- `HEIGHT[15:0]` (R25). -/
  height : BitVec 16
  /-- `STRIDE` (R25). -/
  stride : Word
  /-- `RECOMPUTE_COUNT` (R26). -/
  recomputeCount : Word
  /-- `KERNEL_KSIZE[1:0]` (R27). -/
  kernelKsize : BitVec 2
  /-- `KERNEL[0..24]` (R28). -/
  kernel : Vector Word 25
  /-- The command latch (R29); full exactly while `busy`. -/
  latch : Latch
  /-- The reset input is asserted (R118). -/
  inReset : Bool
  /-- Frame memory (R34(b)). -/
  mem : Memory
  /-- The host has written a byte of the frame region since the running `PROCESS_FRAME` was accepted
  (R52 item 4, U6). -/
  disturbed : Bool
  /-- What happens next, oldest first (log 1). -/
  turns : List Turn
  /-- The answer to the last host access (log 13). -/
  reply : Reply
  /-- How many free values have been drawn (log 5). -/
  draws : Nat
  /-- The environment (log 6, 7, 8, 19). -/
  env : Env
  deriving DecidableEq, Repr

/-- Why the machine would stop with a fault. The spec names none: "no behaviour of this block hangs"
(93_implementation_defined.md) and the block raises no trap (60_exceptions.md R104). A failed command
completes with a result code, and a failed transaction gets an error response (log 22). -/
inductive Fault where
  deriving DecidableEq, Repr

/-- Why the machine would refuse an instruction. -/
inductive Refusal where
  /-- The instruction has no meaning yet; raised by `exec` alone, by its mnemonic. Safe: nothing is
  claimed of it. No arm of `exec` raises it. -/
  | notModelled (mnemonic : String)
  deriving DecidableEq, Repr

/-- The state after reset (10_state.md R36, 70_reset_and_hazards.md R118), with reset released. Frame
memory lists nothing (log 3); the latch is empty and holds zeros (DESIGN CHOICE, log 4); the model's own
fields hold what logs 1, 5, 6, 7, 8, 13 and 19 say. -/
def State.reset : State where
  irqEn := false
  busy := false
  dirty := true
  kernelValid := false
  geomValid := false
  result := 0x00#8
  done := false
  overrun := false
  arg0 := 0#32
  arg1 := 0#32
  arg2 := 0#32
  ksize := Config.resetKsize
  sigma := Config.resetSigma
  width := 0#16
  height := 0#16
  stride := 0#32
  recomputeCount := 0#32
  kernelKsize := 0#2
  kernel := ⟨(List.replicate 25 0#32).toArray, by simp⟩
  latch := { cmd := 0#32, arg0 := 0#32, arg1 := 0#32, arg2 := 0#32 }
  inReset := false
  mem := []
  disturbed := false
  turns := []
  reply := .none
  draws := 0
  env := { memErrors := [], accesses := 0, hostOrder := true, devices := [],
           regBase := Config.memorySize }

end Sys2Proof.Machine
end

