-- ==== Sys2Proof/Machine/Flags.lean ====
section
/-! DEFINITION. Result codes, the words `STATUS`, `EVENTS` and `CTRL` read as, the write-one-to-clear
rule and the interrupt output. -/

namespace Sys2Proof.Machine

/-- The result codes of 60_exceptions.md R101. -/
inductive ResultCode where
  | ok
  | illegalCommand
  | invalidParameter
  | missingGeometry
  | invalidGeometry
  | buffer
  | bus
  /-- Reserved for the source's AllocationFailure and never produced (41_kernel_cache.md R83). -/
  | allocation
  deriving DecidableEq, Repr

/-- The 8-bit code of each result (R101). -/
def ResultCode.code : ResultCode → Byte
  | .ok => 0x00#8
  | .illegalCommand => 0x01#8
  | .invalidParameter => 0x02#8
  | .missingGeometry => 0x03#8
  | .invalidGeometry => 0x04#8
  | .buffer => 0x05#8
  | .bus => 0x06#8
  | .allocation => 0x07#8

/-- `STATUS` as a word: bit 0 `BUSY`, 1 `DIRTY`, 2 `KERNEL_VALID`, 3 `GEOM_VALID`, 15:8 `RESULT`, every
other bit 0 (10_state.md R19). -/
def statusWord (busy dirty kernelValid geomValid : Bool) (result : Byte) : Word :=
  0#16 ++ result ++ 0#4 ++ BitVec.ofBool geomValid ++ BitVec.ofBool kernelValid
    ++ BitVec.ofBool dirty ++ BitVec.ofBool busy

/-- `EVENTS` as a word: bit 0 `DONE`, bit 1 `OVERRUN`, every other bit 0 (10_state.md R20). -/
def eventsWord (done overrun : Bool) : Word :=
  0#30 ++ BitVec.ofBool overrun ++ BitVec.ofBool done

/-- `CTRL` as a word: bit 0 `IRQ_EN`, every other bit 0 (10_state.md R18). -/
def ctrlWord (irqEn : Bool) : Word := 0#31 ++ BitVec.ofBool irqEn

/-- A write-one-to-clear flag after a write of `bit` to its place (10_state.md R20). -/
def clearedBy (flag bit : Bool) : Bool := flag && !bit

/-- The interrupt output: `CTRL.IRQ_EN AND EVENTS.DONE`, continuously (60_exceptions.md R109). -/
def State.irq (s : State) : Bool := s.irqEn && s.done

end Sys2Proof.Machine
end

