-- ==== Sys2Proof/Machine/Operands.lean ====
section
/-! DEFINITION. The operands of the commands, each read from the command latch (30_encoding.md R58), and
the sizes of the block as exact integers (42_convolution_engine.md R100). -/

namespace Sys2Proof.Machine

/-- `CONFIGURE`: `sigma_bits`, the binary32 pattern in `ARG_L[0]` (R58). -/
def State.sigmaOperand (s : State) : Word := s.latch.arg0

/-- `SET_GEOMETRY`: `width` (R58). -/
def State.widthOperand (s : State) : Nat := s.latch.arg0.toNat

/-- `SET_GEOMETRY`: `height` (R58). -/
def State.heightOperand (s : State) : Nat := s.latch.arg1.toNat

/-- `SET_GEOMETRY`: `stride` (R58). -/
def State.strideOperand (s : State) : Nat := s.latch.arg2.toNat

/-- `PROCESS_FRAME`: `base`, the address of pixel (0, 0) channel 0 (R58). -/
def State.baseOperand (s : State) : Nat := s.latch.arg0.toNat

/-- `PROCESS_FRAME`: `length`, the buffer length in bytes (R58). -/
def State.lengthOperand (s : State) : Nat := s.latch.arg1.toNat

/-- The kernel side `2n + 1` of kernel size `n` (00_scope.md R6). -/
def side (n : Nat) : Nat := 2 * n + 1

/-- `need = STRIDE · HEIGHT`, exact (42_convolution_engine.md R94). -/
def State.frameBytes (s : State) : Nat := s.stride.toNat * s.height.toNat

/-- The address is in the frame region `[base, base + need)` of the command in the latch, computed
without wrapping (20_memory.md R46). -/
def State.inFrameRegion (s : State) (a : Nat) : Bool :=
  decide (s.baseOperand ≤ a) && decide (a < s.baseOperand + s.frameBytes)

/-- The addresses of the frame region, lowest first (20_memory.md R46). -/
def State.frameRegion (s : State) : List Nat :=
  (List.range s.frameBytes).map (s.baseOperand + ·)

end Sys2Proof.Machine
end

