-- ==== Sys2Proof/Machine/Ops.lean ====
section
/-! DEFINITION. The shared operations: frame memory, the acceptance of a command, its completion (the
block's only exception mechanism, 60_exceptions.md R103), and the freeing of unspecified bytes. -/

namespace Sys2Proof.Machine

/-- `MemRead(addr, 1)`: the byte last written, or what an unwritten byte reads as (00_scope.md R9;
log 3). -/
def Memory.read : Memory → Nat → Byte
  | [], _ => Config.unwritten
  | (b, w) :: rest, a => if a = b then w else Memory.read rest a

/-- `MemWrite(addr, 1, v)` (00_scope.md R9), keeping the canonical form. -/
def Memory.write : Memory → Nat → Byte → Memory
  | [], a, v => if v = Config.unwritten then [] else [(a, v)]
  | (b, w) :: rest, a, v =>
    if a < b then
      if v = Config.unwritten then (b, w) :: rest else (a, v) :: (b, w) :: rest
    else if a = b then
      if v = Config.unwritten then rest else (a, v) :: rest
    else (b, w) :: Memory.write rest a v

/-- The canonical form: addresses strictly rising, no entry an unlisted address would read as. -/
def Memory.wf : Memory → Bool
  | [] => true
  | (a, v) :: rest =>
    decide (v ≠ Config.unwritten) && rest.all (fun c => decide (a < c.1)) && Memory.wf rest

/-- Every listed address exists: frame memory has 2^32 bytes (10_state.md R34(b)). -/
def Memory.inRange (m : Memory) : Bool := m.all (fun c => decide (c.1 < Config.memorySize))

/-- The writes of `cells`, first to last. -/
def Memory.writeAll (m : Memory) (cells : List Host.Cell) : Memory :=
  cells.foldl (fun m c => Memory.write m c.1 c.2) m

/-- Each of the addresses with the byte it takes in draw number `draw` (log 5). -/
def freeCells (draw : Nat) (addrs : List Nat) : List Host.Cell :=
  addrs.map fun a => (a, Config.freeByte draw a)

/-- Every listed byte takes a free value; one draw is used (93_implementation_defined.md U2, U3, U6 to
U8). -/
def State.freeBytes (s : State) (addrs : List Nat) : State :=
  { s with mem := s.mem.writeAll (freeCells s.draws addrs), draws := s.draws + 1 }

/-- A command word is accepted (20_memory.md R41): the latch takes the word and the arguments of that
moment, and `BUSY` is set. From here on the frame region belongs to the engine (R52 item 4). -/
def State.accept (s : State) (w : Word) : State :=
  { s with
    latch := { cmd := w, arg0 := s.arg0, arg1 := s.arg1, arg2 := s.arg2 }
    busy := true
    disturbed := false }

/-- `finish(code)`: `RESULT <- code`, `BUSY <- 0`, `DONE <- 1` and nothing else (60_exceptions.md
R103). -/
def State.finish (s : State) (code : ResultCode) : State :=
  { s with result := code.code, busy := false, done := true }

/-- `raise Reject(code)`: `finish(code)` where the command has changed nothing else (00_scope.md R10,
60_exceptions.md R105). -/
def State.reject (s : State) (code : ResultCode) : State := s.finish code

/-- The stretches that are not plain memory: the block's own register window and the platform's devices
(20_memory.md R50, 70_reset_and_hazards.md R121 H-3). -/
def State.notPlain (s : State) : List Range := ⟨s.env.regBase, Config.registerWindow⟩ :: s.env.devices

/-- A byte of the 32-bit address space that is not plain memory (70_reset_and_hazards.md R121 H-3). -/
def State.isDevice (s : State) (a : Nat) : Bool :=
  decide (a < Config.memorySize) &&
    s.notPlain.any fun r => decide (r.base ≤ a) && decide (a < r.base + r.size)

end Sys2Proof.Machine
end

