-- ==== Sys2Proof/Machine/Float.lean ====
section
/-! DEFINITION. The numeric primitives of 00_scope.md R11: binary32 and binary64 values, one rounding to
nearest, ties to even, per operation, subnormals kept, no flags. A finite value is a sign and a count of
the format's smallest subnormal, so every finite value is an exact natural number of units. -/

namespace Sys2Proof.Machine

/-- The two formats the block uses (R11). -/
inductive Format where
  | binary32
  | binary64
  deriving DecidableEq, Repr

/-- Bits of the significand, the hidden one included. -/
def Format.precision : Format → Nat
  | .binary32 => 24
  | .binary64 => 53

/-- The unit is `2^-scale`, the smallest subnormal. -/
def Format.scale : Format → Nat
  | .binary32 => 149
  | .binary64 => 1074

/-- A finite value is below `2^topExp` units. -/
def Format.topExp : Format → Nat
  | .binary32 => 277
  | .binary64 => 2098

/-- The value 1 in units. -/
def Format.one (f : Format) : Nat := 2 ^ f.scale

/-- A floating-point value of one format. -/
inductive Fp (f : Format) where
  | finite (neg : Bool) (units : Nat)
  | inf (neg : Bool)
  | nan
  deriving DecidableEq, Repr

/-- `num / den` units to the nearest multiple of the spacing that `precision` bits have there, ties to
even, with no bound on the exponent. -/
def roundUnits (precision num den : Nat) : Nat :=
  let spacing := 2 ^ ((num / den).log2 + 1 - precision)
  let quotient := num / (den * spacing)
  let twice := 2 * (num % (den * spacing))
  if den * spacing < twice ∨ (twice = den * spacing ∧ quotient % 2 = 1) then
    (quotient + 1) * spacing
  else quotient * spacing

/-- `RN64` and `RN32`: the value `±num/den` units, rounded once; past the largest finite value it is
infinite (R11). -/
def Fp.round (f : Format) (neg : Bool) (num den : Nat) : Fp f :=
  let units := roundUnits f.precision num den
  if units < 2 ^ f.topExp then .finite neg units else .inf neg

/-- An integer `±n`, exact in the uses the spec makes of it (41_kernel_cache.md R78: `-d` for `d ≤ 8`). -/
def Fp.ofInteger (f : Format) (neg : Bool) (n : Nat) : Fp f := .finite neg (n * f.one)

/-- `⊕`, one rounding of the exact sum; an exact zero sum of unlike signs is `+0` (R11). -/
def Fp.add {f : Format} : Fp f → Fp f → Fp f
  | .nan, _ => .nan
  | _, .nan => .nan
  | .inf a, .inf b => if a = b then .inf a else .nan
  | .inf a, .finite _ _ => .inf a
  | .finite _ _, .inf b => .inf b
  | .finite a u, .finite b v =>
    if a = b then Fp.round f a (u + v) 1
    else if u < v then Fp.round f b (v - u) 1
    else if v < u then Fp.round f a (u - v) 1
    else .finite false 0

/-- `⊗`, one rounding of the exact product (R11). -/
def Fp.mul {f : Format} : Fp f → Fp f → Fp f
  | .nan, _ => .nan
  | _, .nan => .nan
  | .inf a, .inf b => .inf (xor a b)
  | .inf a, .finite b v => if v = 0 then .nan else .inf (xor a b)
  | .finite a u, .inf b => if u = 0 then .nan else .inf (xor a b)
  | .finite a u, .finite b v => Fp.round f (xor a b) (u * v) f.one

/-- `⊘`, one rounding of the exact quotient (R11). -/
def Fp.div {f : Format} : Fp f → Fp f → Fp f
  | .nan, _ => .nan
  | _, .nan => .nan
  | .inf _, .inf _ => .nan
  | .inf a, .finite b _ => .inf (xor a b)
  | .finite a _, .inf b => .finite (xor a b) 0
  | .finite a u, .finite b v =>
    if v = 0 then if u = 0 then .nan else .inf (xor a b)
    else Fp.round f (xor a b) (u * f.one) v

/-- `f64(b)`: the exact binary64 value of a binary32 value (R11). -/
def Fp.widen : Fp .binary32 → Fp .binary64
  | .finite neg u => .finite neg (u * 2 ^ 925)
  | .inf neg => .inf neg
  | .nan => .nan

/-- `RN32` of a binary64 value (R11). -/
def Fp.narrow : Fp .binary64 → Fp .binary32
  | .finite neg u => Fp.round .binary32 neg u (2 ^ 925)
  | .inf neg => .inf neg
  | .nan => .nan

/-- The sign-free bits of `units`: biased exponent and fraction, as one number (10_state.md R24 for
binary32). -/
def magnitudeBits (precision units : Nat) : Nat :=
  let e := units.log2 + 1 - precision
  e * 2 ^ (precision - 1) + units / 2 ^ e

/-- The units that the sign-free bits of a finite value stand for. -/
def unitsOfBits (precision bits : Nat) : Nat :=
  let e := bits / 2 ^ (precision - 1)
  let fraction := bits % 2 ^ (precision - 1)
  if e = 0 then fraction else (2 ^ (precision - 1) + fraction) * 2 ^ (e - 1)

/-- The value of a pattern with the sign apart: exponent field all ones is infinite or NaN. -/
def Fp.ofParts (f : Format) (neg : Bool) (bits maxExponent : Nat) : Fp f :=
  if bits / 2 ^ (f.precision - 1) = maxExponent then
    if bits % 2 ^ (f.precision - 1) = 0 then .inf neg else .nan
  else .finite neg (unitsOfBits f.precision bits)

/-- The value of a binary32 pattern: bit 31 sign, 30:23 exponent, 22:0 fraction (10_state.md R24). -/
def Fp.ofBits32 (w : Word) : Fp .binary32 :=
  Fp.ofParts .binary32 w.msb (w.extractLsb' 0 31).toNat 255

/-- The value of a binary64 pattern: bit 63 sign, 62:52 exponent, 51:0 fraction. -/
def Fp.ofBits64 (w : BitVec 64) : Fp .binary64 :=
  Fp.ofParts .binary64 w.msb (w.extractLsb' 0 63).toNat 2047

/-- The binary32 pattern of a value. The pattern of a NaN is free (log 15). -/
def Fp.toBits32 : Fp .binary32 → Word
  | .finite neg u => BitVec.ofBool neg ++ BitVec.ofNat 31 (magnitudeBits 24 u)
  | .inf neg => BitVec.ofBool neg ++ 0x7F800000#31
  | .nan => Config.nanPattern.truncate 32

/-- The binary64 pattern of a value. The pattern of a NaN is free (log 15). -/
def Fp.toBits64 : Fp .binary64 → BitVec 64
  | .finite neg u => BitVec.ofBool neg ++ BitVec.ofNat 63 (magnitudeBits 53 u)
  | .inf neg => BitVec.ofBool neg ++ 0x7FF0000000000000#63
  | .nan => Config.nanPattern

/-- `clamp(v, lo, hi)` (R11). -/
def clamp (v lo hi : Int) : Int := if v < lo then lo else if hi < v then hi else v

/-- The nearest integer to `units · 2^-1074`, halves up. -/
def nearestInteger (units : Nat) : Nat := (2 * units + 2 ^ 1074) / 2 ^ 1075

/-- `clamp(round_half_away(a), lo, hi)`, halves away from zero (R11, 40_lut_linearizer.md R71). An
infinite value lies past every bound; a NaN rounds to a free integer (log 15). -/
def Fp.roundClamped (lo hi : Int) : Fp .binary64 → Int
  | .finite false u => clamp (nearestInteger u) lo hi
  | .finite true u => clamp (-(nearestInteger u : Int)) lo hi
  | .inf false => hi
  | .inf true => lo
  | .nan => clamp Config.nanRounds lo hi

end Sys2Proof.Machine
end

