-- ==== Sys2Proof/Machine/Exp.lean ====
section
/-! DEFINITION. `expRN`, the correctly rounded exponential (00_scope.md R11). `e^(-x)` is bracketed between
two fixed-point numbers that agree to some 250 bits past a binary64 significand, and the rounding on
which both ends agree is the correct one (log 14). -/

namespace Sys2Proof.Machine

/-- The fixed-point numbers below count units of `2^-expBits`. -/
def expBits : Nat := 1400

/-- `x / 2^expHalvings < 2^-8` for every `x < 1024`. -/
def expHalvings : Nat := 18

/-- A closed interval of fixed-point numbers. -/
structure Bracket where
  lo : Nat
  hi : Nat
  deriving DecidableEq, Repr

/-- `⌈a / b⌉`. -/
def ceilDiv (a b : Nat) : Nat := (a + b - 1) / b

/-- From a bracket of `T(k+1)` one of `T(k) = 1 - (y/k)·T(k+1)`, where `y` is
`units · 2^-1074 / 2^expHalvings`. -/
def Bracket.tailStep (units k : Nat) (b : Bracket) : Bracket :=
  { lo := 2 ^ expBits - ceilDiv (units * b.hi) (k * 2 ^ (1074 + expHalvings))
    hi := 2 ^ expBits - units * b.lo / (k * 2 ^ (1074 + expHalvings)) }

/-- A bracket of `T(k) = Σ_j (-y)^j (k-1)!/(k-1+j)!`, of which `T(1) = e^(-y)`, from `terms` terms of the
series and the fact that every `T` lies between 0 and 1. -/
def tailBracket (units : Nat) : Nat → Nat → Bracket
  | 0, _ => { lo := 0, hi := 2 ^ expBits }
  | terms + 1, k => Bracket.tailStep units k (tailBracket units terms (k + 1))

/-- A bracket of the square, rounded outwards. -/
def Bracket.square (b : Bracket) : Bracket :=
  { lo := b.lo * b.lo / 2 ^ expBits, hi := ceilDiv (b.hi * b.hi) (2 ^ expBits) }

/-- A bracket of the `2^n`-th power. -/
def Bracket.squareTimes : Nat → Bracket → Bracket
  | 0, b => b
  | n + 1, b => Bracket.squareTimes n b.square

/-- A bracket of `e^(-x)` for `x = units · 2^-1074 < 1024`. -/
def expBracket (units : Nat) : Bracket :=
  Bracket.squareTimes expHalvings (tailBracket units 128 1)

/-- One rounding of a value that lies between two rounded ends: the ends agree, or the free value says
which of the two it is (log 14). -/
def agreed (units lower upper : Nat) : Nat :=
  if lower = upper then lower else if Config.expTakesUpper units then upper else lower

/-- `RN64(e^(-x))` in units, `x = units · 2^-1074`. From `x = 1024` on, `e^(-x)` is far below half of the
smallest subnormal (41_kernel_cache.md R80). -/
def expOfNegative (units : Nat) : Nat :=
  if 2 ^ 1084 ≤ units then 0
  else
    let b := expBracket units
    agreed units (roundUnits 53 b.lo (2 ^ (expBits - 1074)))
      (roundUnits 53 b.hi (2 ^ (expBits - 1074)))

/-- `RN64(e^x)` in units for `x > 0`, from the reciprocals of the same bracket; `none` where it is past
every finite value. No rule of the block evaluates it (41_kernel_cache.md R80: `q ∈ [-800, 0]`). -/
def expOfPositive (units : Nat) : Option Nat :=
  if 2 ^ 1084 ≤ units then none
  else
    let b := expBracket units
    if b.lo = 0 then none
    else some (agreed units (roundUnits 53 (2 ^ (expBits + 1074)) b.hi)
      (roundUnits 53 (2 ^ (expBits + 1074)) b.lo))

/-- `expRN(x)` (R11). -/
def expRN : Fp .binary64 → Fp .binary64
  | .nan => .nan
  | .inf true => .finite false 0
  | .inf false => .inf false
  | .finite true u => .finite false (expOfNegative u)
  | .finite false u =>
    match expOfPositive u with
    | some v => if v < 2 ^ 2098 then .finite false v else .inf false
    | none => .inf false

end Sys2Proof.Machine
end

