-- ==== Sys2Proof/Machine/Lut.lean ====
section
/-! DEFINITION. The lut_linearizer: the forward and the inverse gamma table as the normative data of
40_lut_linearizer.md sections 4 and 5 (R65, R68, R73, R74; log 16), and the lookups (R67, R71). -/

namespace Sys2Proof.Machine

/-- `FWD[0..63]`, binary64 patterns, eight to a row (40_lut_linearizer.md section 4). -/
def fwdRows0 : List (List (BitVec 64)) :=
  [ [0x403822E250E04003#64, 0x403A1722ABFF3DF7#64, 0x403C20DE404AC045#64, 0x403E403E33A6C627#64,
      0x40403AB54ED03C2A#64, 0x404160454B61A4CB#64, 0x404290E2234E8774#64, 0x4043CC9E784B9E8E#64],
    [0x4045138C7FE3152E#64, 0x404665BE08E5602C#64, 0x4047C344806FA7C8#64, 0x40492C30F69285B4#64,
      0x404AA09422A2841D#64, 0x404C207E673AA53C#64, 0x404DABFFD5F8401E#64, 0x404F432832F6A749#64],
    [0x405073037C0829C5#64, 0x40514A55ABF555CB#64, 0x4052279220687A4A#64, 0x40530AC02FB13E8D#64,
      0x4053F3E7108BD444#64, 0x4054E30DDB50918C#64, 0x4055D83B8B121967#64, 0x4056D376FEAB68E0#64],
    [0x4057D4C6F9BEFDC9#64, 0x4058DC3225A8301C#64, 0x4059E9BF125FBC84#64, 0x405AFD74375468B3#64,
      0x405C1757F43894BE#64, 0x405D377091C57B87#64, 0x405E5DC44274D2A4#64, 0x405F8A5923316CC5#64],
    [0x40605E9A9DFFB975#64, 0x4060FB2F404E5F10#64, 0x40619AED688CE7A5#64, 0x40623DD7FD35ECFC#64,
      0x4062E3F1DB7C268F#64, 0x40638D3DD78D1EC5#64, 0x406439BEBCD106D6#64, 0x4064E9774E27D413#64],
    [0x40659C6A4623CE12#64, 0x4066529A5741B284#64, 0x40670C0A2C1E90DD#64, 0x4067C8BC67AB7DA7#64,
      0x406888B3A55F3B18#64, 0x40694BF27965F2BF#64, 0x406A127B70CF19EE#64, 0x406ADC5111B99927#64],
    [0x406BA975DB7E4D31#64, 0x406C79EC46D8F6FA#64, 0x406D4DB6C60FAE12#64, 0x406E24D7C518E85F#64,
      0x406EFF51A9C028B3#64, 0x406FDD26D3C96484#64, 0x40705F2CCE899825#64, 0x4070D1762CDBE085#64],
    [0x40714570AC16686E#64, 0x4071BB1D70B139AB#64, 0x4072327D9C7072E7#64, 0x4072AB924E72B3A8#64,
      0x4073265CA33F1173#64, 0x4073A2DDB4D29B53#64, 0x407421169AAD708B#64, 0x4074A10869DF6F0E#64] ]

/-- `FWD[64..127]`, binary64 patterns, eight to a row (40_lut_linearizer.md section 4). -/
def fwdRows1 : List (List (BitVec 64)) :=
  [ [0x407522B435147E31#64, 0x4075A61B0CA079A2#64, 0x40762B3DFE8AC08E#64, 0x4076B21E16996CAF#64,
      0x40773ABC5E5C34D9#64, 0x4077C519DD36FE50#64, 0x40785137986C2013#64, 0x4078DF1693265B2A#64],
    [0x40796EB7CE828ADB#64, 0x407A001C49990F8E#64, 0x407A93450186F6D1#64, 0x407B2832F176E33B#64,
      0x407BBEE712A9B63F#64, 0x407C57625C7EFE97#64, 0x407CF1A5C47D2D02#64, 0x407D8DB23E5991B6#64],
    [0x407E2B88BC002444#64, 0x407ECB2A2D9B181F#64, 0x407F6C97819A3F2C#64, 0x408007E8D25D1E33#64,
      0x40805A6CC105C3FD#64, 0x4080ADD8017CA364#64, 0x4081022B07A7FB2E#64, 0x4081576646A1F798#64],
    [0x4081AD8A30BBDF1C#64, 0x4082049737812BCC#64, 0x40825C8DCBBA9199#64, 0x4082B56E5D70F251#64,
      0x40830F395BF03FD2#64, 0x408369EF35CA4D29#64, 0x4083C59058D98EE7#64, 0x4084221D3243CB71#64],
    [0x40847F962E7CBB92#64, 0x4084DDFBB9489C0D#64, 0x40853D4E3DBEB056#64, 0x40859D8E264BB726#64,
      0x4085FEBBDCB45124#64, 0x408660D7CA175A46#64, 0x4086C3E256F0360A#64, 0x408727DBEB190F22#64],
    [0x40878CC4EDCD0AD7#64, 0x4087F29DC5AA7069#64, 0x40885966D8B4C50D#64, 0x4088C1208C56DC75#64,
      0x408929CB4564DE92#64, 0x40899367681E428C#64, 0x4089FDF5582FBF96#64, 0x408A697578B5338F#64],
    [0x408AD5E82C3B7FEA#64, 0x408B434DD4C25D07#64, 0x408BB1A6D3BE246C#64, 0x408C20F38A1991D5#64,
      0x408C913458377B9B#64, 0x408D02699DF48274#64, 0x408D7493BAA8B90F#64, 0x408DE7B30D29436E#64],
    [0x408E5BC7F3C9EE74#64, 0x408ED0D2CC5EBFAA#64, 0x408F46D3F43D7DB5#64, 0x408FBDCBC83F314E#64,
      0x40901ADD5260CF9D#64, 0x4090575072D45D9B#64, 0x4090943F73300A26#64, 0x4090D1AA80EE1D31#64] ]

/-- `FWD[128..191]`, binary64 patterns, eight to a row (40_lut_linearizer.md section 4). -/
def fwdRows2 : List (List (BitVec 64)) :=
  [ [0x40910F91C94E0EB6#64, 0x40914DF579553326#64, 0x40918CD5BDCF64D3#64, 0x4091CC32C34FAA50#64,
      0x40920C0CB630D9EF#64, 0x40924C63C2963A55#64, 0x40928D38146C2060#64, 0x4092CE89D7688A3E#64],
    [0x40931059370BB7E4#64, 0x409352A65EA0C0EA#64, 0x40939571793E27EB#64, 0x4093D8BAB1C66B59#64,
      0x40941C8232E893F3#64, 0x409460C82720C0D0#64, 0x4094A58CB8B8B12C#64, 0x4094EAD011C84BE4#64],
    [0x409530925C3624C0#64, 0x409576D3C1B7FF99#64, 0x4095BD946BD35150#64, 0x409604D483DDBED1#64,
      0x40964C9432FD99F5#64, 0x409694D3A22A5C7A#64, 0x4096DD92FA2D20F6#64, 0x409726D263A11A0A#64],
    [0x4097709206F4078E#64, 0x4097BAD20C66AA0D#64, 0x409805929C0D346B#64, 0x409850D3DDCFBBC7#64,
      0x40989C95F96AA5BE#64, 0x4098E8D9166F14ED#64, 0x4099359D5C4353DD#64, 0x409982E2F2233E46#64],
    [0x4099D0A9FF20A8D5#64, 0x409A1EF2AA23C75B#64, 0x409A6DBD19EB9179#64, 0x409ABD09750E25CF#64,
      0x409B0CD7E1F92BCB#64, 0x409B5D2886F233F6#64, 0x409BADFB8A1716EC#64, 0x409BFF51115E52E2#64],
    [0x409C5129429767FA#64, 0x409CA384436B3323#64, 0x409CF662395C47C2#64, 0x409D49C349C74809#64,
      0x409D9DA799E33C2F#64, 0x409DF20F4EC1E84F#64, 0x409E46FA8D502129#64, 0x409E9C697A561FAB#64],
    [0x409EF25C3A77D36A#64, 0x409F48D2F23533E4#64, 0x409F9FCDC5EA90B0#64, 0x409FF74CD9D0E095#64,
      0x40A027A828FF07CD#64, 0x40A053EC2932A600#64, 0x40A080727F6BA91C#64, 0x40A0AD3B3D815BEA#64],
    [0x40A0DA46753A1AC1#64, 0x40A10794384B7804#64, 0x40A13524985A602B#64, 0x40A162F7A6FB3D42#64,
      0x40A1910D75B21A10#64, 0x40A1BF6615F2C4B1#64, 0x40A1EE019920F0C6#64, 0x40A21CE010905936#64] ]

/-- `FWD[192..255]`, binary64 patterns, eight to a row (40_lut_linearizer.md section 4). -/
def fwdRows3 : List (List (BitVec 64)) :=
  [ [0x40A24C018D84E185#64, 0x40A27B662132B6B5#64, 0x40A2AB0DDCBE6FC9#64, 0x40A2DAF8D13D2DCF#64,
      0x40A30B270FB4BB96#64, 0x40A33B98A91BACF5#64, 0x40A36C4DAE597DAF#64, 0x40A39D463046AFF0#64],
    [0x40A3CE823FACEA7E#64, 0x40A40001ED471676#64, 0x40A431C549C17CB5#64, 0x40A463CC65B9E2E3#64,
      0x40A4961751BFA831#64, 0x40A4C8A61E53E1A7#64, 0x40A4FB78DBE97634#64, 0x40A52E8F9AE53A57#64],
    [0x40A561EA6B9E0B76#64, 0x40A595895E5CEAF1#64, 0x40A5C96C835D18D2#64, 0x40A5FD93EACC2E37#64,
      0x40A631FFA4CA3763#64, 0x40A666AFC169CD93#64, 0x40A69BA450B03075#64, 0x40A6D0DD62955F61#64],
    [0x40A7065B07043235#64, 0x40A73C1D4DDA7206#64, 0x40A7722446E8F170#64, 0x40A7A87001F3A4A7#64,
      0x40A7DF008EB1B943#64, 0x40A815D5FCCDADCE#64, 0x40A84CF05BE56902#64, 0x40A8844FBB8A50CF#64],
    [0x40A8BBF42B416116#64, 0x40A8F3DDBA834232#64, 0x40A92C0C78BC5F32#64, 0x40A96480754CFBE1#64,
      0x40A99D39BF894A80#64, 0x40A9D63866B9815D#64, 0x40AA0F7C7A19F013#64, 0x40AA490608DB14A6#64],
    [0x40AA82D52221B04D#64, 0x40AABCE9D506DC1C#64, 0x40AAF74430981D67#64, 0x40AB31E443D779F1#64,
      0x40AB6CCA1DBB8BDA#64, 0x40ABA7F5CD2F9570#64, 0x40ABE367611394B2#64, 0x40AC1F1EE83C56AD#64],
    [0x40AC5B1C71738A95#64, 0x40AC97600B77D4C9#64, 0x40ACD3E9C4FCE184#64, 0x40AD10B9ACAB7772#64,
      0x40AD4DCFD1218A02#64, 0x40AD8B2C40F24BA5#64, 0x40ADC8CF0AA63FBA#64, 0x40AE06B83CBB4C6B#64],
    [0x40AE44E7E5A4CC3A#64, 0x40AE835E13CB9F89#64, 0x40AEC21AD58E3DD4#64, 0x40AF011E3940C6CF#64,
      0x40AF40684D2D1348#64, 0x40AF7FF91F92C5FE#64, 0x40AFBFD0BEA75C29#64, 0x40AFFFEF38963DEE#64] ]

/-- `FWD`, 32 rows of eight entries. -/
def fwdTable : List (List (BitVec 64)) := fwdRows0 ++ fwdRows1 ++ fwdRows2 ++ fwdRows3

/-- `FWD[i]` as a binary64 pattern; 256 entries (R65). -/
def fwdBits (i : Nat) : BitVec 64 := (fwdTable.getD (i / 8) []).getD (i % 8) 0

/-- `FWD[clamp(v, 0, 255)]` (R67). -/
def fwd (v : Int) : Fp .binary64 := Fp.ofBits64 (fwdBits (clamp v 0 255).toNat)

/-- Output values 0..69 with the last index of each (40_lut_linearizer.md section 5). -/
def invRanges0 : List (Nat × Byte) :=
  [ (0, 0#8), (1, 6#8), (2, 8#8), (3, 9#8), (4, 11#8), (5, 12#8),
    (6, 13#8), (7, 14#8), (8, 15#8), (9, 16#8), (11, 17#8), (12, 18#8),
    (14, 19#8), (15, 20#8), (17, 21#8), (19, 22#8), (21, 23#8), (23, 24#8),
    (25, 25#8), (27, 26#8), (30, 27#8), (32, 28#8), (35, 29#8), (37, 30#8),
    (40, 31#8), (43, 32#8), (46, 33#8), (49, 34#8), (52, 35#8), (55, 36#8),
    (59, 37#8), (62, 38#8), (66, 39#8), (70, 40#8), (74, 41#8), (78, 42#8),
    (82, 43#8), (86, 44#8), (90, 45#8), (95, 46#8), (99, 47#8), (104, 48#8),
    (109, 49#8), (113, 50#8), (119, 51#8), (124, 52#8), (129, 53#8), (134, 54#8),
    (140, 55#8), (145, 56#8), (151, 57#8), (157, 58#8), (163, 59#8), (169, 60#8),
    (175, 61#8), (182, 62#8), (188, 63#8), (195, 64#8), (202, 65#8), (208, 66#8),
    (215, 67#8), (223, 68#8), (230, 69#8) ]

/-- Output values 70..132 with the last index of each (40_lut_linearizer.md section 5). -/
def invRanges1 : List (Nat × Byte) :=
  [ (237, 70#8), (245, 71#8), (252, 72#8), (260, 73#8), (268, 74#8), (276, 75#8),
    (284, 76#8), (292, 77#8), (301, 78#8), (309, 79#8), (318, 80#8), (327, 81#8),
    (336, 82#8), (345, 83#8), (354, 84#8), (363, 85#8), (373, 86#8), (382, 87#8),
    (392, 88#8), (402, 89#8), (412, 90#8), (422, 91#8), (432, 92#8), (443, 93#8),
    (453, 94#8), (464, 95#8), (475, 96#8), (485, 97#8), (497, 98#8), (508, 99#8),
    (519, 100#8), (531, 101#8), (542, 102#8), (554, 103#8), (566, 104#8), (578, 105#8),
    (590, 106#8), (602, 107#8), (615, 108#8), (627, 109#8), (640, 110#8), (653, 111#8),
    (666, 112#8), (679, 113#8), (693, 114#8), (706, 115#8), (720, 116#8), (733, 117#8),
    (747, 118#8), (761, 119#8), (775, 120#8), (790, 121#8), (804, 122#8), (819, 123#8),
    (834, 124#8), (848, 125#8), (863, 126#8), (879, 127#8), (894, 128#8), (909, 129#8),
    (925, 130#8), (941, 131#8), (957, 132#8) ]

/-- Output values 133..195 with the last index of each (40_lut_linearizer.md section 5). -/
def invRanges2 : List (Nat × Byte) :=
  [ (973, 133#8), (989, 134#8), (1005, 135#8), (1022, 136#8), (1038, 137#8), (1055, 138#8),
    (1072, 139#8), (1089, 140#8), (1106, 141#8), (1124, 142#8), (1141, 143#8), (1159, 144#8),
    (1177, 145#8), (1195, 146#8), (1213, 147#8), (1231, 148#8), (1250, 149#8), (1268, 150#8),
    (1287, 151#8), (1306, 152#8), (1325, 153#8), (1344, 154#8), (1363, 155#8), (1383, 156#8),
    (1403, 157#8), (1422, 158#8), (1442, 159#8), (1462, 160#8), (1483, 161#8), (1503, 162#8),
    (1524, 163#8), (1544, 164#8), (1565, 165#8), (1586, 166#8), (1607, 167#8), (1629, 168#8),
    (1650, 169#8), (1672, 170#8), (1694, 171#8), (1716, 172#8), (1738, 173#8), (1760, 174#8),
    (1782, 175#8), (1805, 176#8), (1828, 177#8), (1850, 178#8), (1874, 179#8), (1897, 180#8),
    (1920, 181#8), (1944, 182#8), (1967, 183#8), (1991, 184#8), (2015, 185#8), (2039, 186#8),
    (2063, 187#8), (2088, 188#8), (2113, 189#8), (2137, 190#8), (2162, 191#8), (2187, 192#8),
    (2213, 193#8), (2238, 194#8), (2263, 195#8) ]

/-- Output values 196..255 with the last index of each (40_lut_linearizer.md section 5). -/
def invRanges3 : List (Nat × Byte) :=
  [ (2289, 196#8), (2315, 197#8), (2341, 198#8), (2367, 199#8), (2394, 200#8), (2420, 201#8),
    (2447, 202#8), (2474, 203#8), (2501, 204#8), (2528, 205#8), (2555, 206#8), (2583, 207#8),
    (2610, 208#8), (2638, 209#8), (2666, 210#8), (2694, 211#8), (2723, 212#8), (2751, 213#8),
    (2780, 214#8), (2809, 215#8), (2837, 216#8), (2867, 217#8), (2896, 218#8), (2925, 219#8),
    (2955, 220#8), (2985, 221#8), (3015, 222#8), (3045, 223#8), (3075, 224#8), (3105, 225#8),
    (3136, 226#8), (3167, 227#8), (3198, 228#8), (3229, 229#8), (3260, 230#8), (3291, 231#8),
    (3323, 232#8), (3355, 233#8), (3387, 234#8), (3419, 235#8), (3451, 236#8), (3483, 237#8),
    (3516, 238#8), (3549, 239#8), (3582, 240#8), (3615, 241#8), (3648, 242#8), (3681, 243#8),
    (3715, 244#8), (3749, 245#8), (3783, 246#8), (3817, 247#8), (3851, 248#8), (3885, 249#8),
    (3920, 250#8), (3955, 251#8), (3990, 252#8), (4025, 253#8), (4060, 254#8), (4095, 255#8) ]

/-- `INV` by its contiguous ranges: the last index of each, and the value it holds there. -/
def invTable : List (Nat × Byte) := invRanges0 ++ invRanges1 ++ invRanges2 ++ invRanges3

/-- The value of the first range that ends at or after `i`. -/
def rangeLookup : List (Nat × Byte) → Nat → Byte
  | [], _ => 0xFF#8
  | (last, v) :: rest, i => if i ≤ last then v else rangeLookup rest i

/-- `INV[i]`, `i = 0..4095` (R68). -/
def inv (i : Nat) : Byte := rangeLookup invTable i

/-- `INV[clamp(round_half_away(acc), 0, 4095)]` (R71). -/
def invOfAccumulator (acc : Fp .binary64) : Byte := inv (Fp.roundClamped 0 4095 acc).toNat

/-- The round trip `RT(v)` (R72). -/
def roundTrip (v : Byte) : Byte := invOfAccumulator (fwd v.toNat)

end Sys2Proof.Machine
end

