-- ==== Sys2Proof/Machine/KernelCache.lean ====
section
/-! DEFINITION. The adaptive_kernel_cache: `CONFIGURE` (41_kernel_cache.md R75 to R77) and the kernel
recompute (R78, R79). -/

namespace Sys2Proof.Machine

/-- `sigma_ok`: the pattern lies in `[0x3DCCCCCD, 0x42C80000]` as an unsigned integer (R76). -/
def sigmaOk (pattern : Word) : Bool :=
  decide (0x3DCCCCCD ≤ pattern.toNat) && decide (pattern.toNat ≤ 0x42C80000)

/-- `CONFIGURE` compares bit for bit with the values stored now (R77). -/
def State.parametersDiffer (s : State) (ks : Nat) (sb : Word) : Bool :=
  decide (ks ≠ s.ksize.toNat) || decide (sb ≠ s.sigma)

/-- The stores of a `CONFIGURE` that passed its checks; `DIRTY` is set, never cleared (R75). -/
def State.storeParameters (s : State) (ks : Nat) (sb : Word) : State :=
  { s with
    dirty := s.dirty || s.parametersDiffer ks sb
    ksize := BitVec.ofNat 2 ks
    sigma := sb }

/-- `CONFIGURE` (R75, and R106 for the order of its checks). -/
def execConfigure (ks : Nat) (s : State) : Host.Outcome State Fault Refusal :=
  if 2 < ks then .next (s.reject .invalidParameter)
  else if !sigmaOk s.sigmaOperand then .next (s.reject .invalidParameter)
  else .next ((s.storeParameters ks s.sigmaOperand).finish .ok)

/-- The taps `(i, j)` of an `s × s` block in row-major order (R78, 42_convolution_engine.md R89). -/
def taps (s : Nat) : List (Nat × Nat) :=
  (List.range s).flatMap fun i => (List.range s).map fun j => (i, j)

/-- `d = ii² + jj²` with `ii = i - n`, `jj = j - n` (R78). -/
def tapDistance (n : Nat) (tap : Nat × Nat) : Nat :=
  (((tap.1 : Int) - n) ^ 2 + ((tap.2 : Int) - n) ^ 2).toNat

/-- `t = sg ⊗ sg`, `sg` the exact binary64 value of `SIGMA` (R78). -/
def sigmaSquared (sigma : Word) : Fp .binary64 :=
  let sg := (Fp.ofBits32 sigma).widen
  sg.mul sg

/-- `raw[i][j] = RN32(expRN((-d) ⊘ t))` (R78). -/
def rawWeight (sigma : Word) (d : Nat) : Fp .binary32 :=
  (expRN ((Fp.ofInteger .binary64 true d).div (sigmaSquared sigma))).narrow

/-- The raw weights in row-major order (R78 step 1). -/
def rawWeights (n : Nat) (sigma : Word) : List (Fp .binary32) :=
  (taps (side n)).map fun tap => rawWeight sigma (tapDistance n tap)

/-- `sum`, accumulated in binary64 from `+0.0` in row-major order (R78 step 2). -/
def weightSum (raws : List (Fp .binary32)) : Fp .binary64 :=
  raws.foldl (fun sum w => sum.add w.widen) (.finite false 0)

/-- `RN32(f64(raw) ⊘ sum)` as a pattern (R78 step 3). -/
def normalised (sum : Fp .binary64) (raw : Fp .binary32) : Word := ((raw.widen.div sum).narrow).toBits32

/-- The 25 words a recompute stores for `KSIZE = n`: `s²` weights, then zeros (R78 step 3, 10_state.md
R28). -/
def kernelWords (n : Nat) (sigma : Word) : List Word :=
  let raws := rawWeights n sigma
  (raws.map (normalised (weightSum raws)) ++ List.replicate 25 0#32).take 25

theorem kernelWords_length (n : Nat) (sigma : Word) : (kernelWords n sigma).length = 25 := by
  simp [kernelWords]

/-- `KERNEL[0..24]` as a recompute from `KSIZE = n` and `SIGMA = sigma` leaves it (R78, R79). -/
def kernelFor (n : BitVec 2) (sigma : Word) : Vector Word 25 :=
  ⟨(kernelWords n.toNat sigma).toArray, by simp [kernelWords_length]⟩

/-- `recompute()` (R78). -/
def State.recompute (s : State) : State :=
  { s with
    kernel := kernelFor s.ksize s.sigma
    kernelKsize := s.ksize
    dirty := false
    kernelValid := true
    recomputeCount := s.recomputeCount + 1#32 }

/-- The lazy refill inside `PROCESS_FRAME`: `if reg[STATUS].DIRTY = 1 then recompute()`
(42_convolution_engine.md R93). -/
def State.ensureKernel (s : State) : State := if s.dirty then s.recompute else s

end Sys2Proof.Machine
end

