-- ==== Sys2Proof/Machine/Convolution.lean ====
section
/-! DEFINITION. The gaussian_convolution_engine: `SET_GEOMETRY` (42_convolution_engine.md R85), frame
addressing and regions (R86 to R88), the convolution (R89 to R92) and `PROCESS_FRAME` (R93 to R96). -/

namespace Sys2Proof.Machine

/-- The stores of a `SET_GEOMETRY` that passed its checks (R85). -/
def State.storeGeometry (s : State) (w h st : Nat) : State :=
  { s with
    width := BitVec.ofNat 16 w
    height := BitVec.ofNat 16 h
    stride := BitVec.ofNat 32 st
    geomValid := true }

/-- `SET_GEOMETRY` (R85, and R106 for the order of its checks). -/
def execSetGeometry (s : State) : Host.Outcome State Fault Refusal :=
  let w := s.widthOperand
  let h := s.heightOperand
  let st := s.strideOperand
  if w = 0 ∨ h = 0 then .next (s.reject .missingGeometry)
  else if 0xFFFF < w ∨ 0xFFFF < h then .next (s.reject .invalidGeometry)
  else if st ≠ 3 * w then .next (s.reject .invalidGeometry)
  else .next ((s.storeGeometry w h st).finish .ok)

/-- One channel of one pixel: column `x`, row `y`, channel `c` (00_scope.md R12). -/
structure Sample where
  x : Nat
  y : Nat
  c : Nat
  deriving DecidableEq, Repr

/-- `P(x, y, c) = base + y·STRIDE + 3x + c` (R86). -/
def State.address (s : State) (p : Sample) : Nat :=
  s.baseOperand + p.y * s.stride.toNat + 3 * p.x + p.c

/-- The kernel side of the stored `KSIZE` (R87). -/
def State.kernelSide (s : State) : Nat := side s.ksize.toNat

/-- Rows of the interior region, `max(0, HEIGHT - s)` (R87). -/
def State.interiorRows (s : State) : Nat := s.height.toNat - s.kernelSide

/-- Columns of the interior region, `max(0, WIDTH - s)` (R87). -/
def State.interiorColumns (s : State) : Nat := s.width.toNat - s.kernelSide

/-- Every channel of every interior pixel, in the order of R93: rows, then columns, then channels. -/
def State.interior (s : State) : List Sample :=
  (List.range s.interiorRows).flatMap fun y =>
    (List.range s.interiorColumns).flatMap fun x =>
      (List.range Config.channels).map fun c => ⟨x, y, c⟩

/-- The footprint sample that tap `(i, j)` reads for the output at `p` (R88). -/
def Sample.tap (p : Sample) (t : Nat × Nat) : Sample := ⟨p.x + t.2, p.y + t.1, p.c⟩

/-- `f64(KERNEL[i·s + j])` (R89). -/
def State.weight (s : State) (t : Nat × Nat) : Fp .binary64 :=
  (Fp.ofBits32 (s.kernel.toList.getD (t.1 * s.kernelSide + t.2) 0#32)).widen

/-- One step of the accumulation: `acc ⊕ (FWD[clamp(v, 0, 255)] ⊗ w)`, `v` the byte `m` holds at the
footprint sample (R89). -/
def State.accumulate (s : State) (m : Memory) (p : Sample) (acc : Fp .binary64) (t : Nat × Nat) :
    Fp .binary64 :=
  acc.add ((fwd (m.read (s.address (p.tap t))).toNat).mul (s.weight t))

/-- `acc` of R89: the footprint in row-major order, from `+0.0`. -/
def State.accumulator (s : State) (m : Memory) (p : Sample) : Fp .binary64 :=
  (taps s.kernelSide).foldl (s.accumulate m p) (.finite false 0)

/-- `out(x, y, c)`, computed from the frame as `m` holds it (R89, R90). -/
def State.out (s : State) (m : Memory) (p : Sample) : Byte := invOfAccumulator (s.accumulator m p)

/-- The interior bytes with the values the convolution gives them, all from the frame as it is now,
`ORIG` (R91). -/
def State.outputs (s : State) : List Host.Cell :=
  s.interior.map fun p => (s.address p, s.out s.mem p)

/-- The addresses of the interior bytes (20_memory.md R46). -/
def State.interiorAddresses (s : State) : List Nat := s.interior.map s.address

/-- What `PROCESS_FRAME` does after its checks (R93, and R106 for their order). -/
inductive FramePlan where
  /-- `KSIZE = 0`: success at once (R96). -/
  | identity
  /-- A check failed. -/
  | reject (code : ResultCode)
  /-- Recompute if stale, then convolve. -/
  | convolve
  deriving DecidableEq, Repr

/-- The buffer is shorter than the frame, or the frame passes the top of the address space (R94). -/
def State.bufferBad (s : State) : Bool :=
  decide (s.lengthOperand < s.frameBytes) ||
    decide (Config.memorySize < s.baseOperand + s.frameBytes)

/-- The checks of `PROCESS_FRAME`, in their order (R93, R106). -/
def State.framePlan (s : State) : FramePlan :=
  if s.ksize = 0#2 then .identity
  else if !s.geomValid then .reject .missingGeometry
  else if s.bufferBad then .reject .buffer
  else .convolve

/-- The memory accesses of the pseudocode of R93: for each interior byte, one read a tap and one write
(log 6). -/
def State.accessCount (s : State) : Nat :=
  s.interior.length * (s.kernelSide * s.kernelSide + 1)

/-- Some access of this command gets an error response (R95; log 6). -/
def State.busError (s : State) : Bool :=
  s.env.memErrors.any fun k =>
    decide (s.env.accesses ≤ k) && decide (k < s.env.accesses + s.accessCount)

/-- The accesses of this command, which completes, have been asked for; one that a reset abandons counts none
(log 6). -/
def State.countAccesses (s : State) : State :=
  { s with env := { s.env with accesses := s.env.accesses + s.accessCount } }

/-- Some byte of the frame region that exists is not plain memory (70_reset_and_hazards.md R121 H-3;
log 8). -/
def State.frameOnDevice (s : State) : Bool :=
  s.notPlain.any fun r =>
    decide (max r.base s.baseOperand <
      min (r.base + r.size) (min (s.baseOperand + s.frameBytes) Config.memorySize))

/-- The bytes of the frame that are unspecified when a `PROCESS_FRAME` does not leave the frame as its
rules say: the interior (R95, R119, R121 H-2 and H-4), or the whole region where it is not plain memory
(H-3); of a frame that passes the top of the address space, the bytes that exist. -/
def State.unspecifiedBytes (s : State) : List Nat :=
  (if s.frameOnDevice then s.frameRegion else s.interiorAddresses).filter (· < Config.memorySize)

/-- The host broke a duty over the buffer the engine borrows, whatever the command does with it: H-2 (it
wrote the region) or H-3 (70_reset_and_hazards.md R121). -/
def State.borrowBroken (s : State) : Bool := s.disturbed || s.frameOnDevice

/-- The host broke a duty that leaves a convolved frame unspecified: H-2, H-3 or H-4
(70_reset_and_hazards.md R121). -/
def State.dutyBroken (s : State) : Bool := s.borrowBroken || !s.env.hostOrder

/-- The frame of a command that convolves nothing: untouched, but unspecified where H-2 or H-3 is broken
(20_memory.md R52 item 4, U6, U7; log 9). -/
def State.settle (s : State) : State :=
  if s.borrowBroken then s.freeBytes s.unspecifiedBytes else s

/-- The frame after the convolution, whatever its result code (R91, R95, R121). -/
def State.convolved (s : State) : State :=
  if s.busError || s.dutyBroken then s.freeBytes s.unspecifiedBytes
  else { s with mem := s.mem.writeAll s.outputs }

/-- The convolution of R93 and its completion: 0x06 on a memory error (R95), else 0x00. -/
def State.convolve (s : State) : State :=
  s.convolved.countAccesses.finish (if s.busError then .bus else .ok)

/-- `PROCESS_FRAME` (R93). -/
def execProcessFrame (s : State) : Host.Outcome State Fault Refusal :=
  match s.framePlan with
  | .identity => .next (s.settle.finish .ok)
  | .reject code => .next (s.settle.reject code)
  | .convolve => .next s.ensureKernel.convolve

end Sys2Proof.Machine
end

