-- ==== Sys2Proof/Machine/Dispatch.lean ====
section
/-! DEFINITION. One arm per constructor of `Instr`: the engine's execution of a decoded command on the
command latch (10_state.md R29). -/

namespace Sys2Proof.Machine

def exec (i : Instr) (s : State) : Host.Outcome State Fault Refusal :=
  match i with
  | .configure ks => Sys2Proof.Machine.execConfigure ks s
  | .setGeometry => Sys2Proof.Machine.execSetGeometry s
  | .processFrame => Sys2Proof.Machine.execProcessFrame s

end Sys2Proof.Machine
end

