-- ==== Sys2Proof/Machine/Engine.lean ====
section
/-! DEFINITION. The engine's turn: the completion of the command in the latch (00_scope.md R3, R10). -/

namespace Sys2Proof.Machine

/-- What the word in the latch spells; the block's only fetch (10_state.md R15, R29). -/
def State.latched (s : State) : Except Illegal Instr := decode s.latch.cmd

/-- The engine completes the latched command; a word that spells none completes with 0x01 and has no
other effect (30_encoding.md R60). An idle engine does nothing (60_exceptions.md R117). -/
def engineStep (s : State) : Host.Outcome State Fault Refusal :=
  if s.busy then
    match s.latched with
    | .ok i => exec i s
    | .error _ => .next (s.reject .illegalCommand)
  else .next s

/-- The state after the running command's completion, should it complete now (20_memory.md R44). -/
def State.afterCommand (s : State) : State :=
  match engineStep s with
  | .next t => t
  | .fault _ => s
  | .refused _ => s

/-- A `PROCESS_FRAME` is running, by the word in the latch (20_memory.md R52 item 4). -/
def State.frameRunning (s : State) : Bool :=
  s.busy && (match s.latched with
    | .ok .processFrame => true
    | _ => false)

end Sys2Proof.Machine
end

