-- ==== Sys2Proof/Machine/Host.lean ====
section
/-! DEFINITION. The outside of the block: the register port (20_memory.md R37 to R44), the host's own path
to frame memory (R52, 70_reset_and_hazards.md R121), the reset input (R118, R119), and the host notation of
30_encoding.md R63. -/

namespace Sys2Proof.Machine

/-- The named registers of 10_state.md section 2. -/
inductive Reg where
  | id | ctrl | status | events | cmd | arg0 | arg1 | arg2
  | ksize | sigma | width | height | stride | recomputeCount | kernelKsize
  | kernel (k : Nat)
  deriving DecidableEq, Repr

/-- The register at a byte offset; `none` is a reserved word (R16). -/
def Reg.ofOffset (off : BitVec 8) : Option Reg :=
  match off.toNat with
  | 0x00 => some .id
  | 0x04 => some .ctrl
  | 0x08 => some .status
  | 0x0C => some .events
  | 0x10 => some .cmd
  | 0x14 => some .arg0
  | 0x18 => some .arg1
  | 0x1C => some .arg2
  | 0x20 => some .ksize
  | 0x24 => some .sigma
  | 0x28 => some .width
  | 0x2C => some .height
  | 0x30 => some .stride
  | 0x34 => some .recomputeCount
  | 0x38 => some .kernelKsize
  | o => if 0x40 ≤ o ∧ o < 0x40 + 4 * 25 ∧ o % 4 = 0 then some (.kernel ((o - 0x40) / 4)) else none

/-- The byte offset of a register (10_state.md section 2). -/
def Reg.offset : Reg → BitVec 8
  | .id => 0x00#8
  | .ctrl => 0x04#8
  | .status => 0x08#8
  | .events => 0x0C#8
  | .cmd => 0x10#8
  | .arg0 => 0x14#8
  | .arg1 => 0x18#8
  | .arg2 => 0x1C#8
  | .ksize => 0x20#8
  | .sigma => 0x24#8
  | .width => 0x28#8
  | .height => 0x2C#8
  | .stride => 0x30#8
  | .recomputeCount => 0x34#8
  | .kernelKsize => 0x38#8
  | .kernel k => BitVec.ofNat 8 (0x40 + 4 * k)

/-- What a register holds, as the word a read of an idle block returns (10_state.md R16 to R28). -/
def State.readReg (s : State) : Reg → Word
  | .id => Config.identifier
  | .ctrl => ctrlWord s.irqEn
  | .status => statusWord s.busy s.dirty s.kernelValid s.geomValid s.result
  | .events => eventsWord s.done s.overrun
  | .cmd => 0#32
  | .arg0 => s.arg0
  | .arg1 => s.arg1
  | .arg2 => s.arg2
  | .ksize => s.ksize.zeroExtend 32
  | .sigma => s.sigma
  | .width => s.width.zeroExtend 32
  | .height => s.height.zeroExtend 32
  | .stride => s.stride
  | .recomputeCount => s.recomputeCount
  | .kernelKsize => s.kernelKsize.zeroExtend 32
  | .kernel k => s.kernel.toList.getD k 0#32

/-- Draw number `n` of R44: the value before the running command or the value after it (log 17). -/
def beforeOrAfter {α : Type} (n : Nat) (before after : α) : α :=
  if Config.freeBit n then after else before

/-- How many draws one read while busy uses: `STATUS` has three open fields (R44). -/
def drawsPerRead : Nat := 3

/-- What a read returns while a command runs: a state register, and each of `DIRTY`, `KERNEL_VALID` and
`GEOM_VALID` by itself, reads as before or as after the command (20_memory.md R44); every other register
and field is what it is. -/
def State.readRegBusy (s : State) : Reg → Word
  | .status =>
    statusWord s.busy (beforeOrAfter s.draws s.dirty s.afterCommand.dirty)
      (beforeOrAfter (s.draws + 1) s.kernelValid s.afterCommand.kernelValid)
      (beforeOrAfter (s.draws + 2) s.geomValid s.afterCommand.geomValid) s.result
  | .ksize => beforeOrAfter s.draws (s.readReg .ksize) (s.afterCommand.readReg .ksize)
  | .sigma => beforeOrAfter s.draws (s.readReg .sigma) (s.afterCommand.readReg .sigma)
  | .width => beforeOrAfter s.draws (s.readReg .width) (s.afterCommand.readReg .width)
  | .height => beforeOrAfter s.draws (s.readReg .height) (s.afterCommand.readReg .height)
  | .stride => beforeOrAfter s.draws (s.readReg .stride) (s.afterCommand.readReg .stride)
  | .recomputeCount =>
    beforeOrAfter s.draws (s.readReg .recomputeCount) (s.afterCommand.readReg .recomputeCount)
  | .kernelKsize =>
    beforeOrAfter s.draws (s.readReg .kernelKsize) (s.afterCommand.readReg .kernelKsize)
  | .kernel k => beforeOrAfter s.draws (s.readReg (.kernel k)) (s.afterCommand.readReg (.kernel k))
  | .id => s.readReg .id
  | .ctrl => s.readReg .ctrl
  | .events => s.readReg .events
  | .cmd => s.readReg .cmd
  | .arg0 => s.readReg .arg0
  | .arg1 => s.readReg .arg1
  | .arg2 => s.readReg .arg2

/-- A transaction is legal when its offset is a word offset and all four byte enables are set (R37). -/
def legalAccess (off : BitVec 8) (enables : BitVec 4) : Bool :=
  decide (off.extractLsb' 0 2 = 0#2) && decide (enables = 0xF#4)

/-- Byte lane `i` of the register port carries bits `[8i+7:8i]` (R40). -/
def lane (v : Word) (i : Nat) : Byte := v.extractLsb' (8 * i) 8

/-- The word that four byte lanes carry, lane 0 lowest (R40). -/
def ofLanes (l0 l1 l2 l3 : Byte) : Word := l3 ++ l2 ++ l1 ++ l0

/-- `RegRead(off)`: the answer, and nothing of the block changes (R37, R39). While reset is asserted too:
every register then holds its reset value (R118; log 12). -/
def State.regRead (s : State) (off : BitVec 8) (enables : BitVec 4) : State :=
  if !legalAccess off enables then { s with reply := .error }
  else
    match Reg.ofOffset off with
    | none => { s with reply := .word 0#32 }
    | some r =>
      if s.busy then { s with reply := .word (s.readRegBusy r), draws := s.draws + drawsPerRead }
      else { s with reply := .word (s.readReg r) }

/-- A write of `CMD`: accepted when idle (R41), dropped with `OVERRUN` when busy (R42). -/
def State.writeCmd (s : State) (v : Word) : State :=
  if s.busy then { s with overrun := true } else s.accept v

/-- A legal write to a named register; a read-only register ignores it (10_state.md R16). -/
def State.writeReg (s : State) (v : Word) : Reg → State
  | .ctrl => { s with irqEn := v.getLsbD 0 }
  | .events =>
    { s with
      done := clearedBy s.done (v.getLsbD 0)
      overrun := clearedBy s.overrun (v.getLsbD 1) }
  | .cmd => s.writeCmd v
  | .arg0 => { s with arg0 := v }
  | .arg1 => { s with arg1 := v }
  | .arg2 => { s with arg2 := v }
  | .id => s
  | .status => s
  | .ksize => s
  | .sigma => s
  | .width => s
  | .height => s
  | .stride => s
  | .recomputeCount => s
  | .kernelKsize => s
  | .kernel _ => s

/-- `RegWrite(off, v)` (R37). While reset is asserted every register stays at its reset value (R118). -/
def State.regWrite (s : State) (off : BitVec 8) (v : Word) (enables : BitVec 4) : State :=
  if !legalAccess off enables then { s with reply := .error }
  else if s.inReset then { s with reply := .done }
  else
    match Reg.ofOffset off with
    | none => { s with reply := .done }
    | some r => { s.writeReg v r with reply := .done }

/-- The byte belongs to the frame region of a running `PROCESS_FRAME` (20_memory.md R52 item 4). -/
def State.borrowed (s : State) (a : Nat) : Bool := s.frameRunning && s.inFrameRegion a

/-- The host reads a byte of frame memory: a free value where the engine has borrowed it (R52 item 4, U5)
or where it is not plain memory (log 8), else the byte last written (R49). -/
def State.hostRead (s : State) (addr : Word) : State :=
  if s.borrowed addr.toNat || s.isDevice addr.toNat then
    { s with reply := .byte (Config.freeByte s.draws addr.toNat), draws := s.draws + 1 }
  else { s with reply := .byte (s.mem.read addr.toNat) }

/-- The host writes a byte of frame memory. In a borrowed region the interior's final bytes become
unspecified (R52 item 4, U6). A byte that is not plain memory is the platform's (log 8). -/
def State.hostWrite (s : State) (addr : Word) (v : Byte) : State :=
  if s.isDevice addr.toNat then { s with reply := .done }
  else
    { s with
      mem := s.mem.write addr.toNat v
      disturbed := s.disturbed || s.borrowed addr.toNat
      reply := .done }

/-- One access by the host (00_scope.md R4). -/
def State.hostAccess (s : State) : HostAccess → State
  | .regRead off enables => s.regRead off enables
  | .regWrite off v enables => s.regWrite off v enables
  | .memRead addr => s.hostRead addr
  | .memWrite addr v => s.hostWrite addr v

/-- Frame memory as an assertion of reset leaves it: unspecified bytes of an abandoned `PROCESS_FRAME`
that passes its checks (70_reset_and_hazards.md R119, U3; log 11), or over which H-2 or H-3 is broken
(log 9); else unchanged. DESIGN CHOICE: the accesses that the abandoned command has made, whose number the
spec leaves open (R49, U4), are not counted in `env.accesses` (log 6). -/
def State.abandonFrame (s : State) : State :=
  if s.frameRunning then
    if s.framePlan = .convolve then s.freeBytes s.unspecifiedBytes else s.settle
  else s

/-- Every register and internal element at its reset value, with the reset input asserted (R118). Frame
memory, the schedule, the last answer and the environment are not the block's; so `env.accesses` stays as it
was, the DESIGN CHOICE of log 6 where a running command is abandoned. -/
def State.resetBlock (s : State) : State :=
  { State.reset with
    inReset := true
    mem := s.mem
    turns := s.turns
    reply := s.reply
    draws := s.draws
    env := s.env }

/-- One turn (log 1). -/
def takeTurn (t : Turn) (s : State) : Host.Outcome State Fault Refusal :=
  match t with
  | .host access => .next (s.hostAccess access)
  | .engine => engineStep s
  | .assertReset => .next s.abandonFrame.resetBlock
  | .releaseReset => .next { s with inReset := false }

/-- `wr <reg>, <value>` (30_encoding.md R63). -/
def wr (r : Reg) (v : Word) : Turn := .host (.regWrite r.offset v 0xF#4)

/-- `rd <reg>` (R63). -/
def rd (r : Reg) : Turn := .host (.regRead r.offset 0xF#4)

/-- `configure <ks>, <sigma>`, sigma as its binary32 pattern (R63). -/
def hostConfigure (ks : Nat) (sigma : Word) : List Turn :=
  [wr .arg0 sigma, wr .cmd (0x00000001#32 + BitVec.ofNat 32 ks <<< 8)]

/-- `set_geometry <w>, <h>, <stride>` (R63). -/
def hostSetGeometry (w h stride : Word) : List Turn :=
  [wr .arg0 w, wr .arg1 h, wr .arg2 stride, wr .cmd 0x00000002#32]

/-- `process_frame <base>, <len>` (R63). -/
def hostProcessFrame (base len : Word) : List Turn :=
  [wr .arg0 base, wr .arg1 len, wr .cmd 0x00000003#32]

/-- `wait`: the host's loop ends with the read of `STATUS` that follows the completion (R63; log 1). -/
def hostWait : List Turn := [.engine, rd .status]

/-- `ack` (R63). -/
def hostAck : List Turn := [wr .events 0x00000003#32]

end Sys2Proof.Machine
end

