-- ==== Sys2Proof/Machine/Step.lean ====
section
/-! DEFINITION. One step: the next turn of the schedule; when the schedule is used up, a running command
completes (70_reset_and_hazards.md R123) and an idle block stays as it is (60_exceptions.md R117). -/

namespace Sys2Proof.Machine

def step (s : State) : Host.Outcome State Fault Refusal :=
  match s.turns with
  | [] => engineStep s
  | t :: rest => takeTurn t { s with turns := rest }

/-- `s` with a command word accepted as R41 says (the latch takes the word and the argument registers, and
`BUSY` is set), and the engine's turn next, so that the very next step runs it (log 2). -/
def State.withFetchWord (s : State) (nbits w : Nat) : State :=
  { s.accept (BitVec.ofNat 32 (w % 2 ^ nbits)) with turns := .engine :: s.turns }

end Sys2Proof.Machine
end

