-- ==== Sys2Proof/Safety.lean ====
section
/-! DEFINITION. The words claims are made in: the invariant of 10_state.md R33, what a completion and a
reset leave unchanged, group by group, and the source's own in-place sweep (42_convolution_engine.md R91). -/

namespace Sys2Proof.Machine

/-- What every state of a run satisfies (10_state.md R33, with R28, R82, R101, R118 and the canonical form
of frame memory). -/
structure LegalState (s : State) : Prop where
  /-- R33 item 1. -/
  ksize_legal : s.ksize ≠ 3#2
  /-- R33 item 1. -/
  kernelKsize_legal : s.kernelKsize ≠ 3#2
  /-- R33 item 2. -/
  sigma_legal : 0x3DCCCCCD ≤ s.sigma.toNat ∧ s.sigma.toNat ≤ 0x42C80000
  /-- R33 item 3. -/
  clean_current : s.dirty = false →
    s.kernelValid = true ∧ s.kernelKsize = s.ksize ∧ s.kernel = kernelFor s.ksize s.sigma
  /-- R33 item 4. -/
  invalid_empty : s.kernelValid = false →
    s.dirty = true ∧ s.kernelKsize = 0#2 ∧ s.kernel = State.reset.kernel
  /-- R82: `KERNEL_KSIZE` is never 0 after the first recompute. -/
  valid_ksize : s.kernelValid = true → s.kernelKsize ≠ 0#2
  /-- R33 item 5, first half. -/
  geometry_legal : s.geomValid = true →
    1 ≤ s.width.toNat ∧ 1 ≤ s.height.toNat ∧ s.stride.toNat = 3 * s.width.toNat
  /-- R33 item 5, second half. -/
  geometry_unset : s.geomValid = false → s.width = 0#16 ∧ s.height = 0#16 ∧ s.stride = 0#32
  /-- R101: codes 0x07 to 0xFF are never produced. -/
  result_produced : s.result.toNat ≤ 6
  /-- Frame memory keeps its canonical form. -/
  memory_canonical : s.mem.wf = true
  /-- No byte outside the 2^32 of frame memory is ever written (R34, R94). -/
  memory_inRange : s.mem.inRange = true
  /-- R118: while reset is asserted the block stays in the reset state. -/
  reset_held : s.inReset = true → s.resetBlock = s

/-- `finish(code)` has taken place (60_exceptions.md R103). -/
def Completed (code : Byte) (t : State) : Prop :=
  t.result = code ∧ t.busy = false ∧ t.done = true

/-- The state that a completion with this code leaves, nothing else being changed (R103, R105). -/
def State.finished (s : State) (code : Byte) : State :=
  { s with result := code, busy := false, done := true }

/-- The registers the host writes, `OVERRUN`, the latch and the reset input are as they were. -/
def SameHostSide (s t : State) : Prop :=
  t.irqEn = s.irqEn ∧ t.overrun = s.overrun ∧ t.arg0 = s.arg0 ∧ t.arg1 = s.arg1 ∧ t.arg2 = s.arg2 ∧
    t.latch = s.latch ∧ t.inReset = s.inReset ∧ t.turns = s.turns ∧ t.reply = s.reply

/-- `KSIZE` and `SIGMA` are as they were. -/
def SameParameters (s t : State) : Prop := t.ksize = s.ksize ∧ t.sigma = s.sigma

/-- `WIDTH`, `HEIGHT`, `STRIDE` and `GEOM_VALID` are as they were. -/
def SameGeometry (s t : State) : Prop :=
  t.width = s.width ∧ t.height = s.height ∧ t.stride = s.stride ∧ t.geomValid = s.geomValid

/-- Everything a recompute writes but `DIRTY` is as it was: `KERNEL[0..24]`, `KERNEL_KSIZE`,
`KERNEL_VALID`, `RECOMPUTE_COUNT`. -/
def SameKernel (s t : State) : Prop :=
  t.kernel = s.kernel ∧ t.kernelKsize = s.kernelKsize ∧ t.kernelValid = s.kernelValid ∧
    t.recomputeCount = s.recomputeCount

/-- The model's own fields are as they were (log 1, 5, 6, 13), and so is the note of log 9. -/
def SameOwnFields (s t : State) : Prop :=
  t.draws = s.draws ∧ t.env = s.env ∧ t.disturbed = s.disturbed

/-- Every byte of frame memory reads as it did. -/
def SameMemory (s t : State) : Prop := ∀ a, t.mem.read a = s.mem.read a

/-- What R33 guarantees of the geometry that `PROCESS_FRAME` finds set. -/
def State.GeometryOk (s : State) : Prop := s.stride.toNat = 3 * s.width.toNat

/-- The checks of `PROCESS_FRAME` pass, in the spec's own words (42_convolution_engine.md R93, R94). -/
def State.FrameAccepted (s : State) : Prop :=
  s.ksize ≠ 0#2 ∧ s.geomValid = true ∧ s.frameBytes ≤ s.lengthOperand ∧
    s.baseOperand + s.frameBytes ≤ 2 ^ 32

/-- The host keeps duty H-3 alone: no byte of the frame region is a device's (R121). -/
def State.FrameIsPlain (s : State) : Prop := ∀ a, s.inFrameRegion a = true → s.isDevice a = false

/-- The host keeps its duties H-2 and H-3 over the borrowed buffer (70_reset_and_hazards.md R121). -/
def State.BorrowKept (s : State) : Prop := s.disturbed = false ∧ s.FrameIsPlain

/-- A sample of the interior region (42_convolution_engine.md R87). -/
def State.Interior (s : State) (p : Sample) : Prop :=
  p.y + s.kernelSide < s.height.toNat ∧ p.x + s.kernelSide < s.width.toNat ∧ p.c < 3

/-- A byte that is unspecified where a frame is: it exists, and it is an interior byte, or any byte of a
region that is not plain memory (R95, R121; log 8). -/
def State.Unsettled (s : State) (a : Nat) : Prop :=
  a < 2 ^ 32 ∧ ((s.FrameIsPlain ∧ ∃ p, s.Interior p ∧ s.address p = a) ∨
    (¬s.FrameIsPlain ∧ s.inFrameRegion a = true))

/-- The host keeps its duties H-2, H-3 and H-4 over the frame (70_reset_and_hazards.md R121). -/
def State.DutiesKept (s : State) : Prop :=
  s.BorrowKept ∧ s.env.hostOrder = true

/-- A sample of the frame (R86). -/
def State.InFrame (s : State) (p : Sample) : Prop :=
  p.y < s.height.toNat ∧ p.x < s.width.toNat ∧ p.c < 3

/-- The step belongs to the engine: the schedule is empty or its next turn is the engine's (log 1). -/
def State.EngineMoves (s : State) : Prop := s.turns = [] ∨ ∃ rest, s.turns = .engine :: rest

/-- The step asserts the reset input (70_reset_and_hazards.md R118). -/
def State.ResetMoves (s : State) : Prop := ∃ rest, s.turns = .assertReset :: rest

/-- The step is the host's write of a whole word to a register offset, outside reset (R38). -/
def State.HostWrites (s : State) (off : BitVec 8) (v : Word) : Prop :=
  s.inReset = false ∧ ∃ rest, s.turns = .host (.regWrite off v 0xF#4) :: rest

/-- The step completes the latched command, and the command is `i` (60_exceptions.md R103). -/
def State.Completes (s : State) (i : Instr) : Prop :=
  s.busy = true ∧ s.EngineMoves ∧ decode s.latch.cmd = .ok i

/-- The source's in-place order: each output is written back into the buffer it is computed from, rows top
to bottom, columns left to right (42_convolution_engine.md R91, 90_conflicts.md C5). -/
def State.inPlaceSweep (s : State) : Memory :=
  s.interior.foldl (fun m p => Memory.write m (s.address p) (s.out m p)) s.mem

/-- `PROCESS_FRAME` ends with this code and changes nothing but `RESULT`, `BUSY` and `DONE`, unless the host
broke H-2 or H-3 over its frame: then bytes of memory are free values (60_exceptions.md R105; log 9). -/
def State.FrameEndsWith (s : State) (code : Byte) : Prop :=
  ∃ t, exec .processFrame s = .next t ∧
    t = State.finished { s with mem := t.mem, draws := t.draws } code ∧
    (s.BorrowKept → t.mem = s.mem ∧ t.draws = s.draws)

/-- A magnitude the format's precision can hold, in units, the exponent unbounded above (00_scope.md
R11). -/
def Representable (precision units : Nat) : Prop :=
  ∃ m k, m < 2 ^ precision ∧ units = m * 2 ^ k

/-- The signed number of units of a finite value. -/
def signedUnits (neg : Bool) (units : Nat) : Int := if neg then -(units : Int) else units

/-- `x` is the exact `num / den` units rounded once to the format (00_scope.md R11): a value of the format
that no value of its precision is nearer to `num / den` than, with an even significand in a tie; or, where
that value would pass the largest finite one, infinity of its sign. -/
def RoundedOnce (f : Format) (x : Fp f) (num : Int) (den : Nat) : Prop :=
  (∃ c r, x = .finite c r ∧ Representable f.precision r ∧ r < 2 ^ f.topExp ∧
    ∀ w : Int, Representable f.precision w.natAbs →
      (signedUnits c r * den - num).natAbs ≤ (w * den - num).natAbs ∧
      (w ≠ signedUnits c r → (signedUnits c r * den - num).natAbs = (w * den - num).natAbs →
        r / 2 ^ (r.log2 + 1 - f.precision) % 2 = 0)) ∨
  (x = .inf (decide (num < 0)) ∧
    2 ^ (f.topExp + 1) * den ≤ 2 * num.natAbs + 2 ^ (f.topExp - f.precision) * den)

end Sys2Proof.Machine
end

