-- ==== Sys2Proof/Certificates/Slice0/Obligations.lean ====
section
/-! DEFINITION. The statements for the provers. Each says which rule of spec/ it formalises; a clause that
rests on a choice of the model's names the log entry (notes/assumptions/<n>.md). -/

open Sys2Proof Sys2Proof.Machine

/-! ### Encoding -/

/-- 30_encoding.md R59: the decoder is the opcode map, by mask and match, and every other word is illegal. -/
def Obligations.DecodeFollowsTheOpcodeMap : Prop :=
  ∀ w : Word,
    (∀ ks, decode w = .ok (.configure ks) ↔
      w &&& 0xFFFFFCFF#32 = 0x00000001#32 ∧ ks = w.toNat / 2 ^ 8 % 4) ∧
    (decode w = .ok .setGeometry ↔ w &&& 0xFFFFFFFF#32 = 0x00000002#32) ∧
    (decode w = .ok .processFrame ↔ w &&& 0xFFFFFFFF#32 = 0x00000003#32) ∧
    ((∃ e, decode w = .error e) ↔
      w &&& 0xFFFFFCFF#32 ≠ 0x00000001#32 ∧ w ≠ 0x00000002#32 ∧ w ≠ 0x00000003#32)

/-- R57 to R59: decoding the encoding of any command the format can spell gives it back, and every word
that decodes is the encoding of the command it decodes to, so no bit of a command word is ignored. -/
def Obligations.DecodeInvertsEncode : Prop :=
  (∀ i : Instr, i.wellFormed = true → decode (encode i) = .ok i) ∧
    ∀ (w : Word) (i : Instr), decode w = .ok i → i.wellFormed = true ∧ encode i = w

/-- 95_test_vectors.md section 2.7: words written out there, and what they decode as. -/
def Obligations.SpecCommandWordsDecode : Prop :=
  decode 0x00000001#32 = .ok (.configure 0) ∧ decode 0x00000101#32 = .ok (.configure 1) ∧
    decode 0x00000301#32 = .ok (.configure 3) ∧ decode 0x00000002#32 = .ok .setGeometry ∧
    decode 0x00000003#32 = .ok .processFrame ∧ decode 0x00000000#32 = .error .reservedOpcode ∧
    decode 0x00000401#32 = .error .reservedBits ∧ decode 0x80000001#32 = .error .reservedBits ∧
    decode 0x00000102#32 = .error .kernelSizeField ∧ decode 0x00000103#32 = .error .kernelSizeField ∧
    decode 0xFFFFFFFF#32 = .error .reservedOpcode

/-- The binary32 and binary64 patterns of a value (10_state.md R24): a pattern that is no NaN is the
pattern of the value it stands for. -/
def Obligations.PatternsOfValuesAreExact : Prop :=
  (∀ w : Word, Fp.ofBits32 w ≠ .nan → (Fp.ofBits32 w).toBits32 = w) ∧
    ∀ w : BitVec 64, Fp.ofBits64 w ≠ .nan → (Fp.ofBits64 w).toBits64 = w

/-! ### The engine's step and completion -/

/-- 00_scope.md R3, R10, 30_encoding.md R60, 60_exceptions.md R117: a busy engine's turn, or its move when the
schedule is used up (log 1), is `exec` of the command the latch decodes to; for a word that spells none it is
the completion with 0x01 and nothing else; an idle engine does nothing. The step takes the turn off the
schedule and adds nothing else. -/
def Obligations.StepRunsTheLatchedCommand : Prop :=
  ∀ s : State,
    (∀ i, s.busy = true → decode s.latch.cmd = .ok i →
      (∀ rest, s.turns = .engine :: rest → step s = exec i { s with turns := rest }) ∧
        (s.turns = [] → step s = exec i s)) ∧
    (∀ e, s.busy = true → decode s.latch.cmd = .error e →
      (∀ rest, s.turns = .engine :: rest →
        step s = .next (State.finished { s with turns := rest } 0x01#8)) ∧
        (s.turns = [] → step s = .next (s.finished 0x01#8))) ∧
    (s.busy = false →
      (∀ rest, s.turns = .engine :: rest → step s = .next { s with turns := rest }) ∧
        (s.turns = [] → step s = .next s))

/-- 30_encoding.md R60: a word with opcode 0x00 or 0x04..0xFF, or with a reserved bit set, is accepted when
idle and completes with 0x01, `DONE` set and no other effect, said of the two steps it takes; with R60's worked
example. (`reply` and `disturbed` are the model's, log 13 and 9.) -/
def Obligations.IllegalCommandCompletesWithCode1 : Prop :=
  (∀ (s : State) (w : Word) (rest : List Turn), s.busy = false → s.inReset = false →
    (w.toNat % 2 ^ 8 = 0 ∨ 4 ≤ w.toNat % 2 ^ 8 ∨ w.toNat / 2 ^ 10 ≠ 0 ∨
      (w.toNat % 2 ^ 8 ≠ 1 ∧ w.toNat / 2 ^ 8 % 4 ≠ 0)) →
    s.turns = .host (.regWrite 0x10#8 w 0xF#4) :: .engine :: rest →
    (∃ t, step s = .next t ∧ t.busy = true ∧ t.latch.cmd = w) ∧
      Sys2Proof.core.run 2 s = .next
        (State.finished
          { s with
            turns := rest
            latch := { cmd := w, arg0 := s.arg0, arg1 := s.arg1, arg2 := s.arg2 }
            disturbed := false
            reply := .done } 0x01#8)) ∧
    ∃ t, Sys2Proof.core.run 2
        { State.reset with turns := [.host (.regWrite 0x10#8 0x00000004#32 0xF#4), .engine] } = .next t ∧
      t.readReg .status = 0x00000102#32 ∧ t.readReg .events = 0x00000001#32

/-- 60_exceptions.md R103, R107, R102: every command, whatever its result, leaves the block idle with
`DONE` set and a result code that the table of R101 gives that command. -/
def Obligations.EveryCommandCompletes : Prop :=
  ∀ (i : Instr) (s : State), ∃ t, exec i s = .next t ∧ t.busy = false ∧ t.done = true ∧
    t.result ∈ (match i with
      | .configure _ => [0x00#8, 0x02#8]
      | .setGeometry => [0x00#8, 0x03#8, 0x04#8]
      | .processFrame => [0x00#8, 0x03#8, 0x05#8, 0x06#8])

/-- 70_reset_and_hazards.md R123, R119, as the schedule of log 1 gives them: from every state in which a command
runs, after at most as many steps as the schedule holds, none of which stops, there is a step that ends the
command: the engine's completion of that same command, with `DONE` set, or an assertion of reset; the first,
where the schedule holds no reset. -/
def Obligations.CompletionAlwaysComes : Prop :=
  ∀ s : State, s.busy = true → ∃ k u t, k ≤ s.turns.length ∧
    Sys2Proof.core.run k s = .next u ∧ u.busy = true ∧ u.latch = s.latch ∧
    step u = .next t ∧ t.busy = false ∧
    ((u.EngineMoves ∧ t.done = true) ∨ u.ResetMoves) ∧
    (.assertReset ∉ s.turns → u.EngineMoves)

/-! ### CONFIGURE -/

/-- 41_kernel_cache.md R75: the result of `CONFIGURE` on every operand, and its encoding. -/
def Obligations.ConfigureStoresOrRejects : Prop :=
  (∀ (ks : Nat) (s : State),
    (2 < ks ∨ ¬(0x3DCCCCCD ≤ s.latch.arg0.toNat ∧ s.latch.arg0.toNat ≤ 0x42C80000) →
      exec (.configure ks) s = .next (s.finished 0x02#8)) ∧
    (ks ≤ 2 → 0x3DCCCCCD ≤ s.latch.arg0.toNat → s.latch.arg0.toNat ≤ 0x42C80000 →
      exec (.configure ks) s = .next
        (State.finished
          { s with
            dirty := s.dirty || decide (ks ≠ s.ksize.toNat ∨ s.latch.arg0 ≠ s.sigma)
            ksize := BitVec.ofNat 2 ks
            sigma := s.latch.arg0 } 0x00#8))) ∧
    ∀ w : Word, w &&& 0xFFFFFCFF#32 = 0x00000001#32 →
      decode w = .ok (.configure (w.toNat / 2 ^ 8 % 4))

/-- R76: `sigma_ok` is the interval of patterns, and that is the range [0.1, 100] of the numbers they stand
for (in units of 2^-149, `2^149` being 1): no negative value, zero, NaN or infinity passes. -/
def Obligations.SigmaCheckIsTheNumericRange : Prop :=
  ∀ w : Word,
    (sigmaOk w = true ↔ 0x3DCCCCCD ≤ w.toNat ∧ w.toNat ≤ 0x42C80000) ∧
      (sigmaOk w = true ↔
        ∃ u, Fp.ofBits32 w = .finite false u ∧ 2 ^ 149 ≤ 10 * u ∧ u ≤ 100 * 2 ^ 149)

/-- R77: `CONFIGURE` compares with the stored parameters, never clears `DIRTY`, leaves it with equal
values, sets it with accepted values that differ, and a change and a change back leave it set. -/
def Obligations.ConfigureNeverClearsDirty : Prop :=
  (∀ (ks : Nat) (s t : State), exec (.configure ks) s = .next t →
    (s.dirty = true → t.dirty = true) ∧
    (ks = s.ksize.toNat → s.latch.arg0 = s.sigma → t.dirty = s.dirty) ∧
    (t.result = 0x00#8 → (ks ≠ s.ksize.toNat ∨ s.latch.arg0 ≠ s.sigma) → t.dirty = true)) ∧
    ∀ (ka kb : Nat) (s t u : State) (l : Latch), exec (.configure ka) s = .next t →
      t.result = 0x00#8 → (t.ksize ≠ s.ksize ∨ t.sigma ≠ s.sigma) →
      exec (.configure kb) { t with latch := l } = .next u →
      u.ksize = s.ksize → u.sigma = s.sigma → u.dirty = true

/-! ### SET_GEOMETRY -/

/-- 42_convolution_engine.md R85: the result of `SET_GEOMETRY` on every operand, and its encoding. -/
def Obligations.SetGeometryStoresOrRejects : Prop :=
  (∀ s : State,
    (s.latch.arg0.toNat = 0 ∨ s.latch.arg1.toNat = 0 →
      exec .setGeometry s = .next (s.finished 0x03#8)) ∧
    (s.latch.arg0.toNat ≠ 0 → s.latch.arg1.toNat ≠ 0 →
      (0xFFFF < s.latch.arg0.toNat ∨ 0xFFFF < s.latch.arg1.toNat ∨
        s.latch.arg2.toNat ≠ 3 * s.latch.arg0.toNat) →
      exec .setGeometry s = .next (s.finished 0x04#8)) ∧
    (1 ≤ s.latch.arg0.toNat → s.latch.arg0.toNat ≤ 0xFFFF → 1 ≤ s.latch.arg1.toNat →
      s.latch.arg1.toNat ≤ 0xFFFF → s.latch.arg2.toNat = 3 * s.latch.arg0.toNat →
      exec .setGeometry s = .next
        (State.finished
          { s with
            width := s.latch.arg0.truncate 16
            height := s.latch.arg1.truncate 16
            stride := s.latch.arg2
            geomValid := true } 0x00#8))) ∧
    ∀ w : Word, w &&& 0xFFFFFFFF#32 = 0x00000002#32 → decode w = .ok .setGeometry

/-- The frame of the two commands that never access memory (R75, R85; 20_memory.md R45): what each leaves
unchanged, on every path. -/
def Obligations.ParameterCommandsFrame : Prop :=
  (∀ (ks : Nat) (s t : State), exec (.configure ks) s = .next t →
    SameHostSide s t ∧ SameGeometry s t ∧ SameKernel s t ∧ SameOwnFields s t ∧ SameMemory s t ∧
      (t.result ≠ 0x00#8 → SameParameters s t ∧ t.dirty = s.dirty)) ∧
    ∀ s t : State, exec .setGeometry s = .next t →
      SameHostSide s t ∧ SameParameters s t ∧ SameKernel s t ∧ t.dirty = s.dirty ∧ SameOwnFields s t ∧
        SameMemory s t ∧ (t.result ≠ 0x00#8 → SameGeometry s t)

/-! ### PROCESS_FRAME -/

/-- 42_convolution_engine.md R96: with `KSIZE = 0`, in every state and whatever the operands, the command
succeeds at once and changes nothing but `RESULT`, `BUSY` and `DONE`, frame memory being as it was unless the
host broke its duties over the borrowed buffer (20_memory.md R52 item 4; log 9). -/
def Obligations.ProcessFrameWithKernelSize0IsIdentity : Prop :=
  ∀ s : State, s.ksize = 0#2 → s.FrameEndsWith 0x00#8

/-- R94, with the geometry check before it (R106): a rejected `PROCESS_FRAME` changes nothing but its
completion (memory apart where the host broke its duties over the buffer, R52 item 4; log 9); `need` is exact and below 2^35; once the check has passed every sample of the frame lies in the
region and below 2^32. -/
def Obligations.ProcessFrameChecksGeometryAndBuffer : Prop :=
  ∀ s : State, s.ksize ≠ 0#2 →
    (s.geomValid = false → s.FrameEndsWith 0x03#8) ∧
    (s.geomValid = true →
      (s.latch.arg1.toNat < s.stride.toNat * s.height.toNat ∨
        2 ^ 32 < s.latch.arg0.toNat + s.stride.toNat * s.height.toNat) →
      s.FrameEndsWith 0x05#8) ∧
    (s.GeometryOk → s.stride.toNat * s.height.toNat < 2 ^ 35) ∧
    (s.FrameAccepted → s.GeometryOk → ∀ p, s.InFrame p →
      s.latch.arg0.toNat ≤ s.address p ∧
        s.address p < s.latch.arg0.toNat + s.stride.toNat * s.height.toNat ∧ s.address p < 2 ^ 32)

/-- R91, R93: where the checks pass, no access errs and the host keeps its duties, the command succeeds;
every interior byte holds its output computed from the frame as it was, with the kernel made current first,
and every other byte of memory reads as before. -/
def Obligations.ProcessFrameBlursTheInterior : Prop :=
  ∀ s : State, s.mem.wf = true → s.GeometryOk → s.FrameAccepted → s.DutiesKept → s.busError = false →
    ∃ t, exec .processFrame s = .next t ∧ Completed 0x00#8 t ∧
      SameHostSide s t ∧ SameParameters s t ∧ SameGeometry s t ∧
      (∀ p, s.Interior p → t.mem.read (s.address p) = s.ensureKernel.out s.mem p) ∧
      ∀ a, (∀ p, s.Interior p → s.address p ≠ a) → t.mem.read a = s.mem.read a

/-- R91: the source's own in-place order, each output written back before the next is computed, rows top to
bottom and columns left to right, leaves the same frame memory as computing every output from the original
frame. -/
def Obligations.InPlaceSweepGivesTheSameFrame : Prop :=
  ∀ s : State, s.mem.wf = true → s.GeometryOk → s.inPlaceSweep = s.mem.writeAll s.outputs

/-- R95: a memory error ends the command with 0x06; a recompute it made stands; every interior byte is
unspecified (a free value of log 5), and every other byte reads as before. -/
def Obligations.BusErrorLeavesInteriorUnspecified : Prop :=
  ∀ s : State, s.mem.wf = true → s.GeometryOk → s.FrameAccepted → s.FrameIsPlain → s.busError = true →
    ∃ t, exec .processFrame s = .next t ∧ Completed 0x06#8 t ∧
      SameHostSide s t ∧ SameParameters s t ∧ SameGeometry s t ∧
      SameKernel s.ensureKernel t ∧ t.dirty = false ∧
      (∀ p, s.Interior p → t.mem.read (s.address p) = Config.freeByte s.draws (s.address p)) ∧
      ∀ a, (∀ p, s.Interior p → s.address p ≠ a) → t.mem.read a = s.mem.read a

/-- 70_reset_and_hazards.md R121 and 20_memory.md R52 item 4: with H-2 or H-3 broken, or H-4 over a frame whose
checks pass, every accepted `PROCESS_FRAME`, the identity and a rejected one too, still completes with its code
and its register effects; the unspecified bytes (the interior, or the whole region where it is not plain memory)
are free values, and every other byte reads as before (log 7, 8, 9). -/
def Obligations.BrokenDutyLeavesFrameUnspecified : Prop :=
  ∀ s : State, s.mem.wf = true → s.GeometryOk →
    (¬s.BorrowKept ∨ (s.FrameAccepted ∧ s.env.hostOrder = false)) →
    ∃ t, exec .processFrame s = .next t ∧
      Completed
        (if s.ksize = 0#2 then 0x00#8
          else if s.geomValid = false then 0x03#8
          else if s.latch.arg1.toNat < s.stride.toNat * s.height.toNat ∨
            2 ^ 32 < s.latch.arg0.toNat + s.stride.toNat * s.height.toNat then 0x05#8
          else if s.busError = true then 0x06#8
          else 0x00#8) t ∧
      SameHostSide s t ∧ SameParameters s t ∧ SameGeometry s t ∧
      (s.FrameAccepted → SameKernel s.ensureKernel t ∧ t.dirty = false) ∧
      (¬s.FrameAccepted → SameKernel s t ∧ t.dirty = s.dirty) ∧
      (∀ a, s.Unsettled a → t.mem.read a = Config.freeByte s.draws a) ∧
      ∀ a, ¬s.Unsettled a → t.mem.read a = s.mem.read a

/-- The frame of `PROCESS_FRAME` on every path (R93; 20_memory.md R46; 60_exceptions.md R105): the host's
registers, the parameters and the geometry are unchanged; the kernel state is unchanged or recomputed; a
command whose checks fail stores nothing, the host's duties over the buffer being kept (log 9); one whose
checks pass stores inside the frame region alone, and at interior addresses alone where the region is plain
memory. -/
def Obligations.ProcessFrameFrame : Prop :=
  ∀ s t : State, s.mem.wf = true → s.GeometryOk → exec .processFrame s = .next t →
    SameHostSide s t ∧ SameParameters s t ∧ SameGeometry s t ∧ t.disturbed = s.disturbed ∧
      t.env = { s.env with accesses := t.env.accesses } ∧
      (¬s.FrameAccepted → SameKernel s t ∧ t.dirty = s.dirty ∧ t.env = s.env ∧
        (s.BorrowKept → SameOwnFields s t ∧ SameMemory s t)) ∧
      (s.FrameAccepted → SameKernel s.ensureKernel t ∧ t.dirty = false) ∧
      (∀ a, s.inFrameRegion a = false → t.mem.read a = s.mem.read a) ∧
      (s.FrameIsPlain → ∀ a, (∀ p, s.Interior p → s.address p ≠ a) → t.mem.read a = s.mem.read a)

/-- R97: after a `PROCESS_FRAME` over plain memory, every pixel in the last `s` rows or the last `s` columns is
byte for byte unchanged. -/
def Obligations.LastRowsAndColumnsPassThrough : Prop :=
  ∀ s t : State, s.mem.wf = true → s.GeometryOk → s.FrameIsPlain → exec .processFrame s = .next t →
    ∀ p, s.InFrame p →
      (s.height.toNat - s.kernelSide ≤ p.y ∨ s.width.toNat - s.kernelSide ≤ p.x) →
      t.mem.read (s.address p) = s.mem.read (s.address p)

/-- R87, R93: a frame no larger than the kernel in one direction has an empty interior: the command succeeds
after its recompute, whatever the memory port would answer, and frame memory is as it was. -/
def Obligations.EmptyInteriorWritesNothing : Prop :=
  ∀ s : State, s.FrameAccepted → s.FrameIsPlain →
    (s.height.toNat ≤ 2 * s.ksize.toNat + 1 ∨ s.width.toNat ≤ 2 * s.ksize.toNat + 1) →
    ∃ t, exec .processFrame s = .next t ∧ Completed 0x00#8 t ∧ t.mem = s.mem ∧ t.dirty = false

/-! ### The kernel -/

/-- 41_kernel_cache.md R78: the recompute word by word, its effect on the rest of the state, and that
`PROCESS_FRAME` runs it after its checks exactly when `DIRTY` is set, and no other command, and no
`PROCESS_FRAME` that fails a check, touches what it writes. -/
def Obligations.RecomputeFollowsTheFormula : Prop :=
  (∀ s : State, s.ksize = 1#2 ∨ s.ksize = 2#2 →
    let n := s.ksize.toNat
    let side := 2 * n + 1
    let sg := (Fp.ofBits32 s.sigma).widen
    let raw := fun i j : Nat =>
      (expRN ((Fp.finite true ((((i : Int) - n) ^ 2 + ((j : Int) - n) ^ 2).toNat * 2 ^ 1074)).div
        (sg.mul sg))).narrow
    let sum := (List.range side).foldl (fun acc i =>
      (List.range side).foldl (fun acc j => acc.add (raw i j).widen) acc) (Fp.finite false 0)
    (∀ k, k < 25 → s.recompute.kernel.toList[k]? = some
      (if k < side * side then (((raw (k / side) (k % side)).widen.div sum).narrow).toBits32
        else 0x00000000#32)) ∧
      s.recompute =
        { s with
          kernel := s.recompute.kernel
          kernelKsize := s.ksize
          dirty := false
          kernelValid := true
          recomputeCount := BitVec.ofNat 32 ((s.recomputeCount.toNat + 1) % 2 ^ 32) }) ∧
    (∀ s : State, s.FrameAccepted → ∃ t, exec .processFrame s = .next t ∧
      (s.dirty = true → SameKernel s.recompute t ∧ t.dirty = false) ∧
      (s.dirty = false → SameKernel s t ∧ t.dirty = false)) ∧
    ∀ (i : Instr) (s t : State), exec i s = .next t →
      (i = .processFrame ∧ s.FrameAccepted ∧ s.dirty = true) ∨ SameKernel s t

/-- R80: for every legal kernel size and sigma, every stored weight is a non-negative finite binary32, the
centre weight is the largest, and the kernel is symmetric under reflection and transposition. -/
def Obligations.KernelIsFiniteSymmetricAndPeaked : Prop :=
  ∀ (n : BitVec 2) (sigma : Word), n = 1#2 ∨ n = 2#2 → sigmaOk sigma = true →
    let side := 2 * n.toNat + 1
    let w := fun i j : Nat => ((kernelFor n sigma).toList.getD (i * side + j) 0#32).toNat
    ∀ i j, i < side → j < side →
      w i j < 0x7F800000 ∧ w i j ≤ w n.toNat n.toNat ∧
        w i j = w (side - 1 - i) j ∧ w i j = w i (side - 1 - j) ∧ w i j = w j i

/-- R81: for every legal kernel size and sigma the stored weights sum to `1 ± 1e-6`, exactly, in units of
2^-149 (`2^149` is 1). -/
def Obligations.KernelWeightsSumToOne : Prop :=
  ∀ (n : BitVec 2) (sigma : Word), n = 1#2 ∨ n = 2#2 → sigmaOk sigma = true →
    ∃ units : List Nat,
      (kernelFor n sigma).toList.map Fp.ofBits32 = units.map (Fp.finite false) ∧
        ((units.sum : Int) - 2 ^ 149).natAbs * 10 ^ 6 ≤ 2 ^ 149

/-! ### The convolution -/

/-- R92: at `KSIZE = 1` the accumulator is the unrolled nine-tap sum, in row-major order, bit for bit. -/
def Obligations.FastPathIsTheGenericSum : Prop :=
  ∀ (s : State) (m : Memory) (p : Sample), s.ksize = 1#2 →
    let f := fun i j : Nat =>
      (fwd (m.read (s.address ⟨p.x + j, p.y + i, p.c⟩)).toNat).mul
        (Fp.ofBits32 (s.kernel.toList.getD (3 * i + j) 0#32)).widen
    s.accumulator m p =
      (((((((((Fp.finite false 0).add (f 0 0)).add (f 0 1)).add (f 0 2)).add (f 1 0)).add
        (f 1 1)).add (f 1 2)).add (f 2 0)).add (f 2 1)).add (f 2 2)

/-- R89 to R92: at either kernel size the accumulator is the footprint's sum in row-major order from `+0.0`, tap
`(i, j)` being `FWD[ORIG(x + j, y + i, c)]` times kernel word `i·s + j`, and the output is the inverse table at
the accumulator rounded half away and clamped. -/
def Obligations.AccumulatorIsTheRowMajorSum : Prop :=
  ∀ (s : State) (m : Memory) (x y c : Nat), s.ksize = 1#2 ∨ s.ksize = 2#2 →
    let side := 2 * s.ksize.toNat + 1
    let sample := fun i j : Nat =>
      (m.read (s.latch.arg0.toNat + (y + i) * s.stride.toNat + 3 * (x + j) + c)).toNat
    let acc := (List.range side).foldl (fun acc i =>
      (List.range side).foldl (fun acc j =>
        acc.add ((fwd (sample i j)).mul (Fp.ofBits32 (s.kernel.toList.getD (i * side + j) 0#32)).widen))
        acc) (Fp.finite false 0)
    s.accumulator m ⟨x, y, c⟩ = acc ∧ s.out m ⟨x, y, c⟩ = inv (Fp.roundClamped 0 4095 acc).toNat

/-- R89, R90: an output depends only on the footprint's bytes of its own channel and on the kernel. -/
def Obligations.OutputDependsOnlyOnItsFootprint : Prop :=
  ∀ (s t : State) (m m' : Memory) (p : Sample), t.ksize = s.ksize → t.kernel = s.kernel →
    (∀ i j, i < s.kernelSide → j < s.kernelSide →
      m.read (s.address ⟨p.x + j, p.y + i, p.c⟩) = m'.read (t.address ⟨p.x + j, p.y + i, p.c⟩)) →
    s.out m p = t.out m' p

/-- R99: an input pixel `(px, py)` can influence only the interior outputs with `px - s + 1 ≤ x ≤ px` and
`py - s + 1 ≤ y ≤ py`. -/
def Obligations.PixelInfluencesOnlyItsUpperLeftBlock : Prop :=
  ∀ (s : State) (m m' : Memory) (px py : Nat),
    (∀ q, s.InFrame q → ¬(q.x = px ∧ q.y = py) → m.read (s.address q) = m'.read (s.address q)) →
    ∀ p, s.Interior p → s.out m p ≠ s.out m' p →
      p.x ≤ px ∧ px ≤ p.x + s.kernelSide - 1 ∧ p.y ≤ py ∧ py ≤ p.y + s.kernelSide - 1

/-- R98: over a uniform footprint of `v` the output is `RT(v)`, for either kernel size and every legal
sigma. -/
def Obligations.UniformFootprintGivesTheRoundTrip : Prop :=
  ∀ (s : State) (m : Memory) (p : Sample) (v : Byte), s.ksize = 1#2 ∨ s.ksize = 2#2 →
    sigmaOk s.sigma = true → s.kernel = kernelFor s.ksize s.sigma →
    (∀ t ∈ taps s.kernelSide, m.read (s.address (p.tap t)) = v) →
    s.out m p = roundTrip v

/-! ### The tables -/

/-- 40_lut_linearizer.md R66: the entries of `FWD` are positive, finite, normal and rise by at least 1.954
each (in units of 2^-1074), with the first and last as given, and 255 alone rounds past 4095, to 4096. -/
def Obligations.ForwardTableIsIncreasing : Prop :=
  (∀ i : Nat, i < 255 → ∃ u v, fwd i = .finite false u ∧ fwd (i + 1) = .finite false v ∧
      1000 * u + 1954 * 2 ^ 1074 ≤ 1000 * v) ∧
    (∀ i : Nat, i < 255 → (fwdBits i).toNat < (fwdBits (i + 1)).toNat) ∧
    (∀ i : Nat, i < 256 → 0x0010000000000000 ≤ (fwdBits i).toNat ∧ (fwdBits i).toNat < 0x7FF0000000000000) ∧
    fwdBits 0 = 0x403822E250E04003#64 ∧ fwdBits 255 = 0x40AFFFEF38963DEE#64 ∧
    (∀ i : Nat, i < 256 → (4095 < Fp.roundClamped 0 5000 (fwd i) ↔ i = 255)) ∧
    Fp.roundClamped 0 5000 (fwd 255) = 4096

/-- R70: `INV` is non-decreasing, has the values named, takes every value but 1, 2, 3, 4, 5, 7 and 10 (so 249
of them), and consecutive entries differ by at most 6. -/
def Obligations.InverseTableIsNonDecreasing : Prop :=
  (∀ i, i < 4095 → (inv i).toNat ≤ (inv (i + 1)).toNat ∧ (inv (i + 1)).toNat ≤ (inv i).toNat + 6) ∧
    inv 0 = 0#8 ∧ inv 1 = 6#8 ∧ inv 2 = 8#8 ∧ inv 4095 = 255#8 ∧
    ∀ v : Byte, (∃ i, i < 4096 ∧ inv i = v) ↔ v ∉ [1#8, 2#8, 3#8, 4#8, 5#8, 7#8, 10#8]

/-- R72: the round trip is non-decreasing, never below its argument, off by 25 at 0 and 13 at 128, by nothing
only at 255, and by at most 2 exactly on 235..255. -/
def Obligations.RoundTripBounds : Prop :=
  (∀ v, v < 255 → (roundTrip (BitVec.ofNat 8 v)).toNat ≤ (roundTrip (BitVec.ofNat 8 (v + 1))).toNat) ∧
    (∀ v, v < 256 →
      v ≤ (roundTrip (BitVec.ofNat 8 v)).toNat ∧ (roundTrip (BitVec.ofNat 8 v)).toNat ≤ v + 25 ∧
        ((roundTrip (BitVec.ofNat 8 v)).toNat = v ↔ v = 255) ∧
        ((roundTrip (BitVec.ofNat 8 v)).toNat ≤ v + 2 ↔ 235 ≤ v)) ∧
    roundTrip 0#8 = 25#8 ∧ roundTrip 128#8 = 141#8

/-! ### Arithmetic -/

/-- 00_scope.md R11: the rounding is to the nearest value the precision holds, ties to an even
significand. -/
def Obligations.RoundsToNearestTiesToEven : Prop :=
  ∀ precision num den : Nat, 1 ≤ precision → 1 ≤ den →
    let r := roundUnits precision num den
    Representable precision r ∧
      ∀ v, Representable precision v →
        ((r * den : Int) - num).natAbs ≤ ((v * den : Int) - num).natAbs ∧
          (v ≠ r → ((r * den : Int) - num).natAbs = ((v * den : Int) - num).natAbs →
            r / 2 ^ ((num / den).log2 + 1 - precision) % 2 = 0)

/-- R11: each operation on finite values is the exact result rounded once: a value of the format, none of its
precision nearer, an even significand in a tie, infinity past the largest finite value. The sign of a product
or quotient is that of its operands, zeros too; narrowing rounds once, and widening is exact. -/
def Obligations.OperationsRoundTheExactResult : Prop :=
  (∀ (f : Format) (a b : Bool) (u v : Nat),
    RoundedOnce f ((Fp.finite a u).add (.finite b v)) (signedUnits a u + signedUnits b v) 1 ∧
    RoundedOnce f ((Fp.finite a u).mul (.finite b v)) (signedUnits (xor a b) (u * v)) (2 ^ f.scale) ∧
    (v ≠ 0 →
      RoundedOnce f ((Fp.finite a u).div (.finite b v)) (signedUnits (xor a b) (u * 2 ^ f.scale)) v) ∧
    (∀ c r, (Fp.finite a u : Fp f).mul (.finite b v) = .finite c r → c = xor a b) ∧
    (∀ c r, v ≠ 0 → (Fp.finite a u : Fp f).div (.finite b v) = .finite c r → c = xor a b)) ∧
    ∀ (a : Bool) (u : Nat),
      RoundedOnce .binary32 (Fp.finite a u : Fp .binary64).narrow (signedUnits a u) (2 ^ 925) ∧
      ∃ w, (Fp.finite a u : Fp .binary32).widen = .finite a w ∧ w * 2 ^ 149 = u * 2 ^ 1074

/-- R11, `expRN` of the arguments the block has, `-x` with `x = u / 2^1074`: the result is a non-negative binary64
value; the bracket holds the real exponential; and wherever its two ends round alike (log 14), or `x` is at least
1024, no binary64 value is nearer to `e^(-x)` than the result. -/
def Obligations.ExponentialIsCorrectlyRounded : Prop :=
  ∀ u : Nat,
    (expRN (.finite true u) = .finite false (expOfNegative u) ∧
      Representable 53 (expOfNegative u) ∧ expOfNegative u < 2 ^ 2098) ∧
    (u < 2 ^ 1084 →
      ((expBracket u).lo : ℝ) / 2 ^ expBits ≤ Real.exp (-((u : ℝ) / 2 ^ 1074)) ∧
        Real.exp (-((u : ℝ) / 2 ^ 1074)) ≤ ((expBracket u).hi : ℝ) / 2 ^ expBits) ∧
      ((2 ^ 1084 ≤ u ∨
        roundUnits 53 (expBracket u).lo (2 ^ (expBits - 1074)) =
          roundUnits 53 (expBracket u).hi (2 ^ (expBits - 1074))) →
        ∀ v, Representable 53 v →
          |((expOfNegative u : ℝ) / 2 ^ 1074) - Real.exp (-((u : ℝ) / 2 ^ 1074))| ≤
            |((v : ℝ) / 2 ^ 1074) - Real.exp (-((u : ℝ) / 2 ^ 1074))|)

/-- R71 and R11's `round_half_away`, on the non-negative accumulators the block has: the nearest integer,
halves up, clamped to 4095. -/
def Obligations.AccumulatorRoundsHalvesUp : Prop :=
  ∀ u : Nat, ∃ n : Nat,
    2 * u < (2 * n + 1) * 2 ^ 1074 ∧ 2 * n * 2 ^ 1074 ≤ 2 * u + 2 ^ 1074 ∧
      Fp.roundClamped 0 4095 (.finite false u) = min (n : Int) 4095

/-! ### The register port -/

/-- 20_memory.md R41: a legal `CMD` write while idle loads the latch with the word and the arguments of that
moment and sets `BUSY`; nothing else of the block changes. (`reply` and `disturbed` are the model's, log 13
and 9.) -/
def Obligations.AcceptanceLatchesWordAndArguments : Prop :=
  ∀ (s : State) (v : Word) (rest : List Turn), s.inReset = false → s.busy = false →
    s.turns = .host (.regWrite 0x10#8 v 0xF#4) :: rest →
    step s = .next
      { s with
        turns := rest
        latch := { cmd := v, arg0 := s.arg0, arg1 := s.arg1, arg2 := s.arg2 }
        busy := true
        disturbed := false
        reply := .done }

/-- R42: a legal `CMD` write while busy sets `OVERRUN` and changes nothing else, so the running command
completes as it would have (`reply` is the model's, log 13). -/
def Obligations.CommandWriteWhileBusyIsDropped : Prop :=
  ∀ (s : State) (v : Word) (rest : List Turn), s.inReset = false → s.busy = true →
    s.turns = .host (.regWrite 0x10#8 v 0xF#4) :: rest →
    step s = .next { s with turns := rest, overrun := true, reply := .done }

/-- R43, with 10_state.md R18, R20, R22: out of reset, on a busy block and on an idle one alike, writes of the
arguments, `CTRL` and `EVENTS` take effect at once and change nothing else; and a command completes with the
same effects whatever these registers hold by then. -/
def Obligations.RunningCommandIgnoresLaterArguments : Prop :=
  (∀ (s : State) (v : Word) (rest : List Turn), s.inReset = false →
    (s.turns = .host (.regWrite 0x14#8 v 0xF#4) :: rest →
      step s = .next { s with turns := rest, arg0 := v, reply := .done }) ∧
    (s.turns = .host (.regWrite 0x18#8 v 0xF#4) :: rest →
      step s = .next { s with turns := rest, arg1 := v, reply := .done }) ∧
    (s.turns = .host (.regWrite 0x1C#8 v 0xF#4) :: rest →
      step s = .next { s with turns := rest, arg2 := v, reply := .done }) ∧
    (s.turns = .host (.regWrite 0x04#8 v 0xF#4) :: rest →
      step s = .next { s with turns := rest, irqEn := v.getLsbD 0, reply := .done }) ∧
    (s.turns = .host (.regWrite 0x0C#8 v 0xF#4) :: rest →
      step s = .next
        { s with
          turns := rest
          done := s.done && !v.getLsbD 0
          overrun := s.overrun && !v.getLsbD 1
          reply := .done })) ∧
    ∀ (i : Instr) (s t : State) (v0 v1 v2 : Word) (e d o : Bool) (rep : Reply), exec i s = .next t →
      exec i { s with
          arg0 := v0, arg1 := v1, arg2 := v2, irqEn := e, done := d, overrun := o, reply := rep } =
        .next { t with arg0 := v0, arg1 := v1, arg2 := v2, irqEn := e, overrun := o, reply := rep }

/-- R37: a misaligned transaction, or one with a byte enable clear, is answered with an error and changes no
state of the block. -/
def Obligations.IllegalTransactionHasNoEffect : Prop :=
  ∀ (s : State) (off : BitVec 8) (v : Word) (enables : BitVec 4) (rest : List Turn),
    (off.toNat % 4 ≠ 0 ∨ enables ≠ 0xF#4) →
    (s.turns = .host (.regRead off enables) :: rest ∨
      s.turns = .host (.regWrite off v enables) :: rest) →
    step s = .next { s with turns := rest, reply := .error }

/-- 10_state.md R16: a word offset of no named register reads 0 and ignores writes; so do writes to every
read-only register, and `CMD` reads 0, in reset as out of it. -/
def Obligations.ReservedAndReadOnlyOffsetsIgnoreWrites : Prop :=
  ∀ (s : State) (off : BitVec 8) (v : Word) (rest : List Turn), off.toNat % 4 = 0 →
    ((off.toNat = 0x3C ∨ 0xA4 ≤ off.toNat ∨ off.toNat = 0x10) →
      s.turns = .host (.regRead off 0xF#4) :: rest →
      ∃ t, step s = .next t ∧ t.reply = .word 0#32 ∧
        t = { s with turns := rest, reply := t.reply, draws := t.draws }) ∧
    ((off.toNat = 0x00 ∨ off.toNat = 0x08 ∨ 0x20 ≤ off.toNat) →
      s.turns = .host (.regWrite off v 0xF#4) :: rest →
      step s = .next { s with turns := rest, reply := .done })

/-- 20_memory.md R39, R37: a read of any offset changes nothing but its answer and the draw counter (log 5),
and on an idle block, in reset too, the answer is what the register holds, so a second read gives it again. -/
def Obligations.RegisterReadsHaveNoSideEffect : Prop :=
  ∀ (s : State) (off : BitVec 8) (enables : BitVec 4) (rest : List Turn),
    s.turns = .host (.regRead off enables) :: rest →
    ∃ t, step s = .next t ∧ t = { s with turns := rest, reply := t.reply, draws := t.draws } ∧
      (s.busy = false → off.toNat % 4 = 0 → enables = 0xF#4 →
        ∀ r, Reg.ofOffset off = some r → t.reply = .word (s.readReg r) ∧ t.draws = s.draws)

/-- The register map of 10_state.md section 2 on the read side (R16 to R28): what a legal read of each word
offset of an idle block is answered with, field by field; it changes nothing but the answer (log 13). -/
def Obligations.IdleReadsFollowTheRegisterMap : Prop :=
  ∀ (s : State) (off : BitVec 8) (rest : List Turn), s.busy = false → off.toNat % 4 = 0 →
    s.turns = .host (.regRead off 0xF#4) :: rest →
    ∃ v, step s = .next { s with turns := rest, reply := .word v } ∧
      (off = 0x00#8 → v = 0x47434742#32) ∧
      (off = 0x04#8 → v.getLsbD 0 = s.irqEn ∧ v.extractLsb' 1 31 = 0#31) ∧
      (off = 0x08#8 → v.getLsbD 0 = false ∧ v.getLsbD 1 = s.dirty ∧ v.getLsbD 2 = s.kernelValid ∧
        v.getLsbD 3 = s.geomValid ∧ v.extractLsb' 4 4 = 0#4 ∧ v.extractLsb' 8 8 = s.result ∧
        v.extractLsb' 16 16 = 0#16) ∧
      (off = 0x0C#8 → v.getLsbD 0 = s.done ∧ v.getLsbD 1 = s.overrun ∧ v.extractLsb' 2 30 = 0#30) ∧
      (off = 0x10#8 → v = 0#32) ∧
      (off = 0x14#8 → v = s.arg0) ∧ (off = 0x18#8 → v = s.arg1) ∧ (off = 0x1C#8 → v = s.arg2) ∧
      (off = 0x20#8 → v.toNat = s.ksize.toNat) ∧ (off = 0x24#8 → v = s.sigma) ∧
      (off = 0x28#8 → v.toNat = s.width.toNat) ∧ (off = 0x2C#8 → v.toNat = s.height.toNat) ∧
      (off = 0x30#8 → v = s.stride) ∧ (off = 0x34#8 → v = s.recomputeCount) ∧
      (off = 0x38#8 → v.toNat = s.kernelKsize.toNat) ∧ (off = 0x3C#8 → v = 0#32) ∧
      (∀ k, k < 25 → off.toNat = 0x40 + 4 * k → s.kernel.toList[k]? = some v) ∧
      (0xA4 ≤ off.toNat → v = 0#32)

/-- 10_state.md R20: `EVENTS` is write-one-to-clear, bit by bit, and its reserved bits read 0. -/
def Obligations.EventsClearByWritingOnes : Prop :=
  ∀ (s : State) (v : Word) (rest : List Turn), s.inReset = false →
    s.turns = .host (.regWrite 0x0C#8 v 0xF#4) :: rest →
    ∃ t, step s = .next t ∧ t.readReg .events = s.readReg .events &&& ~~~v ∧
      (t.readReg .events).toNat < 4 ∧
      t = { s with turns := rest, done := t.done, overrun := t.overrun, reply := .done }

/-- 20_memory.md R44: while a command runs, a read of a state register, and each of the three state fields of
`STATUS` by itself, gives its value before the command or its value after it (which, is a free value, log
17); every other register and field gives what it holds; and once idle all of them do. -/
def Obligations.BusyReadsAreBeforeOrAfter : Prop :=
  ∀ (s : State) (off : BitVec 8) (rest : List Turn) (r : Reg), off.toNat % 4 = 0 →
    Reg.ofOffset off = some r → s.turns = .host (.regRead off 0xF#4) :: rest →
    ∃ t v, step s = .next t ∧ t.reply = .word v ∧ t.busy = s.busy ∧
      (s.busy = false → v = s.readReg r) ∧
      (s.busy = true →
        (r ∈ [Reg.id, .ctrl, .events, .cmd, .arg0, .arg1, .arg2] → v = s.readReg r) ∧
        (r ∉ [Reg.id, .ctrl, .status, .events, .cmd, .arg0, .arg1, .arg2] →
          v = s.readReg r ∨ v = s.afterCommand.readReg r) ∧
        (r = .status →
          v.getLsbD 0 = true ∧
          (v.getLsbD 1 = s.dirty ∨ v.getLsbD 1 = s.afterCommand.dirty) ∧
          (v.getLsbD 2 = s.kernelValid ∨ v.getLsbD 2 = s.afterCommand.kernelValid) ∧
          (v.getLsbD 3 = s.geomValid ∨ v.getLsbD 3 = s.afterCommand.geomValid) ∧
          v.extractLsb' 4 4 = 0#4 ∧ v.extractLsb' 8 8 = s.result ∧ v.extractLsb' 16 16 = 0#16))

/-- 60_exceptions.md R109: `irq` is `CTRL.IRQ_EN AND EVENTS.DONE` at every moment; `OVERRUN` is no source;
clearing `IRQ_EN` lowers it and keeps `DONE`, setting it while `DONE` raises it; clearing `DONE` lowers it;
reset lowers it. -/
def Obligations.InterruptFollowsDone : Prop :=
  (∀ s : State, s.irq = ((s.readReg .ctrl).getLsbD 0 && (s.readReg .events).getLsbD 0)) ∧
    (∀ (s : State) (o : Bool), ({ s with overrun := o } : State).irq = s.irq) ∧
    (∀ s : State, (s.writeReg 0#32 .ctrl).irq = false ∧ (s.writeReg 0#32 .ctrl).done = s.done ∧
      (s.writeReg 1#32 .ctrl).irq = s.done ∧ (s.writeReg 1#32 .events).irq = false ∧
      (s.writeReg 1#32 .events).done = false) ∧
    ∀ s : State, s.resetBlock.irq = false ∧ s.resetBlock.done = false ∧ s.resetBlock.irqEn = false

/-! ### Frame memory and the host -/

/-- 20_memory.md R52 item 4, R121 H-2: while a `PROCESS_FRAME` runs, a host read of a frame-region byte gives a
free value, and after a host write to one the completed command, whatever its result, leaves every interior byte
a free value; the written byte, if not interior, ends as written. -/
def Obligations.BorrowedFrameIsUnspecifiedToTheHost : Prop :=
  (∀ (s : State) (a : Word) (rest : List Turn), s.busy = true → decode s.latch.cmd = .ok .processFrame →
    s.inFrameRegion a.toNat = true → s.turns = .host (.memRead a) :: rest →
    step s = .next
      { s with
        turns := rest
        reply := .byte (Config.freeByte s.draws a.toNat)
        draws := s.draws + 1 }) ∧
    ∀ (s t : State) (a : Word) (v : Byte), s.mem.wf = true → s.GeometryOk → s.busy = true →
      decode s.latch.cmd = .ok .processFrame → s.FrameIsPlain → s.inFrameRegion a.toNat = true →
      exec .processFrame (s.hostWrite a v) = .next t →
      (∀ p, s.Interior p → s.address p < 2 ^ 32 →
        t.mem.read (s.address p) = Config.freeByte s.draws (s.address p)) ∧
        ((∀ p, s.Interior p → s.address p ≠ a.toNat) → t.mem.read a.toNat = v) ∧
        ∀ b, b ≠ a.toNat → (∀ p, s.Interior p → s.address p ≠ b) → t.mem.read b = s.mem.read b

/-- 20_memory.md R49, R52 items 3 and 4: a host read of a plain byte outside the borrowed region is answered with
the byte memory holds and changes nothing else; a host write to a plain byte stores it, alone, and outside the
borrowed region breaks no duty. -/
def Obligations.HostReadsAndStoresPlainBytes : Prop :=
  ∀ (s : State) (a : Word) (v : Byte) (rest : List Turn), s.mem.wf = true → s.isDevice a.toNat = false →
    (¬(s.busy = true ∧ decode s.latch.cmd = .ok .processFrame ∧ s.inFrameRegion a.toNat = true) →
      s.turns = .host (.memRead a) :: rest →
      step s = .next { s with turns := rest, reply := .byte (s.mem.read a.toNat) }) ∧
    (s.turns = .host (.memWrite a v) :: rest → ∃ t, step s = .next t ∧
      t = { s with turns := rest, mem := t.mem, disturbed := t.disturbed, reply := .done } ∧
      (∀ b, t.mem.read b = if b = a.toNat then v else s.mem.read b) ∧
      (¬(s.busy = true ∧ decode s.latch.cmd = .ok .processFrame ∧ s.inFrameRegion a.toNat = true) →
        t.disturbed = s.disturbed))

/-! ### Reset -/

/-- 10_state.md R36: what every register reads after reset, and the empty latch. -/
def Obligations.ResetValues : Prop :=
  State.reset.readReg .id = 0x47434742#32 ∧ State.reset.readReg .status = 0x00000002#32 ∧
    State.reset.readReg .events = 0#32 ∧ State.reset.readReg .ctrl = 0#32 ∧
    State.reset.readReg .arg0 = 0#32 ∧ State.reset.readReg .arg1 = 0#32 ∧
    State.reset.readReg .arg2 = 0#32 ∧ State.reset.readReg .ksize = 0#32 ∧
    State.reset.readReg .sigma = 0x3F800000#32 ∧ State.reset.readReg .width = 0#32 ∧
    State.reset.readReg .height = 0#32 ∧ State.reset.readReg .stride = 0#32 ∧
    State.reset.readReg .recomputeCount = 0#32 ∧ State.reset.readReg .kernelKsize = 0#32 ∧
    (∀ k, k < 25 → State.reset.readReg (.kernel k) = 0#32) ∧ State.reset.busy = false

/-- 70_reset_and_hazards.md R118: from any state an assertion of reset gives every register its reset value;
the block stays so, whatever turns are taken, until the release, which changes nothing but the reset input; a
read in reset is answered with the reset value (R37, R16). -/
def Obligations.ResetRestoresEveryRegister : Prop :=
  (∀ (s : State) (rest : List Turn), s.turns = .assertReset :: rest →
    ∃ t, step s = .next t ∧ t.inReset = true ∧ t.busy = false ∧ t.irq = false ∧
      ∀ r, t.readReg r = State.reset.readReg r) ∧
    (∀ s t : State, LegalState s → s.inReset = true → step s = .next t →
      t.busy = false ∧ (∀ r, t.readReg r = State.reset.readReg r) ∧
      ∀ off r rest, Reg.ofOffset off = some r → s.turns = .host (.regRead off 0xF#4) :: rest →
        t.reply = .word (State.reset.readReg r)) ∧
    ∀ (s : State) (rest : List Turn), s.turns = .releaseReset :: rest →
      step s = .next { s with turns := rest, inReset := false }

/-- R119, as log 11 and log 9 read it: a reset abandons the running command without a completion. If that is a
`PROCESS_FRAME` whose checks pass, or whose region the host wrote, its interior bytes are free values and every
other byte is unchanged; otherwise frame memory is unchanged. -/
def Obligations.ResetAbandonsTheRunningCommand : Prop :=
  ∀ (s : State) (rest : List Turn), s.mem.wf = true → s.GeometryOk → s.FrameIsPlain →
    s.turns = .assertReset :: rest →
    ∃ t, step s = .next t ∧ t.busy = false ∧ t.done = false ∧
      (s.busy = true → decode s.latch.cmd = .ok .processFrame →
        (s.FrameAccepted ∨ s.disturbed = true) →
        (∀ p, s.Interior p → s.address p < 2 ^ 32 →
          t.mem.read (s.address p) = Config.freeByte s.draws (s.address p)) ∧
          ∀ a, (∀ p, s.Interior p → s.address p ≠ a) → t.mem.read a = s.mem.read a) ∧
      (¬(s.busy = true ∧ decode s.latch.cmd = .ok .processFrame ∧
        (s.FrameAccepted ∨ s.disturbed = true)) → t.mem = s.mem)

/-! ### Invariants and whole-machine rules -/

/-- The state after reset is legal (10_state.md R33, R36). -/
def Obligations.ResetIsLegal : Prop := LegalState State.reset

/-- 10_state.md R33 with R28, R82, R101, R118: every step of every agent, from every legal state, gives a
legal state. -/
def Obligations.EveryStepKeepsTheStateLegal : Prop :=
  ∀ s t : State, LegalState s → step s = .next t → LegalState t

/-- 10_state.md R31: for every step, each flag is set and cleared only by what the table lists (reset clears
them all), and every completion clears `BUSY` and sets `DONE`. -/
def Obligations.FlagsChangeOnlyAsListed : Prop :=
  ∀ s t : State, step s = .next t →
    (s.busy = false → t.busy = true → ∃ v, s.HostWrites 0x10#8 v) ∧
    (s.busy = true → t.busy = false → (s.EngineMoves ∧ t.done = true) ∨ s.ResetMoves) ∧
    (s.busy = true → s.EngineMoves → t.busy = false ∧ t.done = true) ∧
    (s.dirty = false → t.dirty = true → s.ResetMoves ∨
      ∃ ks, s.Completes (.configure ks) ∧ (t.ksize ≠ s.ksize ∨ t.sigma ≠ s.sigma)) ∧
    (s.dirty = true → t.dirty = false → s.Completes .processFrame ∧
      t.kernel = kernelFor s.ksize s.sigma ∧ t.recomputeCount = s.recomputeCount + 1#32) ∧
    (s.kernelValid = false → t.kernelValid = true → s.Completes .processFrame ∧ s.dirty = true) ∧
    (s.kernelValid = true → t.kernelValid = false → s.ResetMoves) ∧
    (s.geomValid = false → t.geomValid = true → s.Completes .setGeometry ∧ t.result = 0x00#8) ∧
    (s.geomValid = true → t.geomValid = false → s.ResetMoves) ∧
    (s.done = false → t.done = true → s.busy = true ∧ s.EngineMoves) ∧
    (s.done = true → t.done = false → s.ResetMoves ∨
      ∃ v, s.HostWrites 0x0C#8 v ∧ v.getLsbD 0 = true) ∧
    (s.overrun = false → t.overrun = true → s.busy = true ∧ ∃ v, s.HostWrites 0x10#8 v) ∧
    (s.overrun = true → t.overrun = false → s.ResetMoves ∨
      ∃ v, s.HostWrites 0x0C#8 v ∧ v.getLsbD 1 = true)

/-- 10_state.md R18, R22 to R29: for every step, each register changes only by the writer its rule names
(reset apart). -/
def Obligations.RegistersChangeOnlyByTheirWriters : Prop :=
  ∀ s t : State, step s = .next t → ¬s.ResetMoves →
    (t.irqEn ≠ s.irqEn → ∃ v, s.HostWrites 0x04#8 v) ∧
    (t.arg0 ≠ s.arg0 → s.HostWrites 0x14#8 t.arg0) ∧
    (t.arg1 ≠ s.arg1 → s.HostWrites 0x18#8 t.arg1) ∧
    (t.arg2 ≠ s.arg2 → s.HostWrites 0x1C#8 t.arg2) ∧
    (t.ksize ≠ s.ksize ∨ t.sigma ≠ s.sigma →
      ∃ ks, s.Completes (.configure ks) ∧ t.result = 0x00#8) ∧
    (t.width ≠ s.width ∨ t.height ≠ s.height ∨ t.stride ≠ s.stride →
      s.Completes .setGeometry ∧ t.result = 0x00#8) ∧
    (t.kernel ≠ s.kernel ∨ t.kernelKsize ≠ s.kernelKsize ∨ t.recomputeCount ≠ s.recomputeCount →
      s.Completes .processFrame ∧ s.dirty = true ∧ t.recomputeCount = s.recomputeCount + 1#32) ∧
    (t.result ≠ s.result → s.busy = true ∧ s.EngineMoves) ∧
    (t.latch ≠ s.latch → s.busy = false ∧ s.HostWrites 0x10#8 t.latch.cmd)

/-- 20_memory.md R45, R52 items 4 and 5; 00_scope.md R9: for every step from a legal state, a byte of frame memory
changes only by a host write to it, or, in the frame region, by a `PROCESS_FRAME` that completes or that reset
abandons, and that passes its checks or whose buffer the host did not leave alone (log 9). -/
def Obligations.MemoryChangesOnlyByHostOrFrame : Prop :=
  ∀ s t : State, LegalState s → step s = .next t → ∀ a, t.mem.read a ≠ s.mem.read a →
    (∃ (addr : Word) (v : Byte) (rest : List Turn), s.turns = .host (.memWrite addr v) :: rest ∧
      addr.toNat = a ∧ t.mem.read a = v) ∨
    (s.inFrameRegion a = true ∧ (s.FrameAccepted ∨ ¬s.BorrowKept) ∧ s.busy = true ∧
      decode s.latch.cmd = .ok .processFrame ∧ (s.EngineMoves ∨ s.ResetMoves))
end

