-- ==== Sys2Proof/Laws/Memory.lean ====
section
/-! SUPPORT. The laws of frame memory: a read after a write, and every operation keeps the canonical form
and the range (00_scope.md R9, 20_memory.md R49, 10_state.md R34). -/

namespace Sys2Proof.Machine

@[simp] theorem Memory.read_nil (a : Nat) : Memory.read [] a = Config.unwritten := rfl

@[simp] theorem Memory.read_cons (b : Nat) (w : Byte) (m : Memory) (a : Nat) :
    Memory.read ((b, w) :: m) a = if a = b then w else Memory.read m a := rfl

/-- An address below every listed one reads as unwritten. -/
theorem Memory.read_of_lt_all {m : Memory} {a : Nat} (h : ∀ c ∈ m, a < c.1) :
    m.read a = Config.unwritten := by
  induction m with
  | nil => rfl
  | cons c m ih =>
    obtain ⟨b, w⟩ := c
    have hb : a < b := h (b, w) (by simp)
    rw [read_cons, if_neg (by omega)]
    exact ih fun c hc => h c (by simp [hc])

theorem Memory.wf_cons_iff {b : Nat} {w : Byte} {m : Memory} :
    Memory.wf ((b, w) :: m) = true ↔ w ≠ Config.unwritten ∧ (∀ c ∈ m, b < c.1) ∧ m.wf = true := by
  simp [Memory.wf, and_assoc]

@[simp] theorem Memory.wf_nil : Memory.wf [] = true := rfl

/-- A write lists no address but its own and those listed before. -/
theorem Memory.mem_write {m : Memory} {a : Nat} {v : Byte} {c : Host.Cell} (h : c ∈ m.write a v) :
    c = (a, v) ∨ c ∈ m := by
  induction m with
  | nil =>
    simp only [Memory.write] at h
    split at h <;> simp_all
  | cons d m ih =>
    obtain ⟨b, w⟩ := d
    simp only [Memory.write] at h
    split_ifs at h <;> simp only [List.mem_cons] at h ⊢ <;> tauto

/-- READ AFTER WRITE: the written address reads the written byte, every other address reads as before. -/
theorem Memory.read_write {m : Memory} (hm : m.wf = true) (a : Nat) (v : Byte) (b : Nat) :
    (m.write a v).read b = if b = a then v else m.read b := by
  induction m with
  | nil => by_cases hv : v = Config.unwritten <;> by_cases hb : b = a <;> simp [Memory.write, hv, hb]
  | cons d m ih =>
    obtain ⟨c, w⟩ := d
    obtain ⟨-, hlt, hwf⟩ := Memory.wf_cons_iff.mp hm
    have hbelow : ∀ x, x ≤ c → Memory.read m x = Config.unwritten := fun x hx =>
      Memory.read_of_lt_all fun d hd => lt_of_le_of_lt hx (hlt d hd)
    rcases lt_trichotomy a c with h | rfl | h
    · simp only [Memory.write, if_pos h]
      by_cases hv : v = Config.unwritten
      · rw [if_pos hv]
        by_cases hb : b = a
        · subst hb; simp [hv, hbelow b (le_of_lt h), Nat.ne_of_lt h]
        · simp [hb]
      · simp [if_neg hv]
    · simp only [Memory.write, lt_irrefl, if_false, if_true]
      by_cases hv : v = Config.unwritten
      · rw [if_pos hv]
        by_cases hb : b = a
        · subst hb; simp [hv, hbelow b le_rfl]
        · simp [hb]
      · by_cases hb : b = a <;> simp [if_neg hv, hb]
    · simp only [Memory.write, if_neg (Nat.not_lt.mpr (le_of_lt h)), if_neg (Nat.ne_of_gt h),
        Memory.read_cons, ih hwf]
      by_cases hb : b = c
      · subst hb; simp [Nat.ne_of_lt h]
      · simp [hb]

/-- A write keeps the canonical form. -/
theorem Memory.write_wf {m : Memory} (hm : m.wf = true) (a : Nat) (v : Byte) : (m.write a v).wf = true := by
  induction m with
  | nil => by_cases hv : v = Config.unwritten <;> simp [Memory.write, hv, Memory.wf]
  | cons d m ih =>
    obtain ⟨c, w⟩ := d
    obtain ⟨hw, hlt, hwf⟩ := Memory.wf_cons_iff.mp hm
    simp only [Memory.write]
    split_ifs with h1 h2 h3 h4
    · exact hm
    · refine Memory.wf_cons_iff.mpr ⟨h2, ?_, hm⟩
      simp only [List.mem_cons, forall_eq_or_imp]
      exact ⟨h1, fun d hd => lt_trans h1 (hlt d hd)⟩
    · exact hwf
    · exact Memory.wf_cons_iff.mpr ⟨h4, h3 ▸ hlt, hwf⟩
    · refine Memory.wf_cons_iff.mpr ⟨hw, fun d hd => ?_, ih hwf⟩
      rcases Memory.mem_write hd with rfl | hd
      · show c < a
        omega
      · exact hlt d hd

/-- A write to an address that exists lists only addresses that exist. -/
theorem Memory.write_inRange {m : Memory} (hm : m.inRange = true) {a : Nat} (ha : a < Config.memorySize)
    (v : Byte) : (m.write a v).inRange = true := by
  simp only [Memory.inRange, List.all_eq_true, decide_eq_true_eq] at hm ⊢
  intro c hc
  rcases Memory.mem_write hc with rfl | hc
  · exact ha
  · exact hm c hc

/-- Writing what a byte reads as already changes nothing. -/
theorem Memory.write_read_self {m : Memory} (hm : m.wf = true) (a : Nat) : m.write a (m.read a) = m := by
  induction m with
  | nil => simp [Memory.write]
  | cons d m ih =>
    obtain ⟨c, w⟩ := d
    obtain ⟨hw, hlt, hwf⟩ := Memory.wf_cons_iff.mp hm
    rcases lt_trichotomy a c with h | rfl | h
    · have : Memory.read m a = Config.unwritten :=
        Memory.read_of_lt_all fun d hd => lt_trans h (hlt d hd)
      simp [Memory.write, h, Nat.ne_of_lt h, this]
    · simp [Memory.write, hw]
    · simp [Memory.write, Nat.not_lt.mpr (le_of_lt h), Nat.ne_of_gt h, ih hwf]

/-- Canonical memories that read alike are equal. -/
theorem Memory.ext_of_read {m n : Memory} (hm : m.wf = true) (hn : n.wf = true)
    (h : ∀ a, m.read a = n.read a) : m = n := by
  induction m generalizing n with
  | nil =>
    cases n with
    | nil => rfl
    | cons d n =>
      obtain ⟨b, w⟩ := d
      exact absurd (by simpa using (h b).symm) (Memory.wf_cons_iff.mp hn).1
  | cons c m ih =>
    obtain ⟨a, v⟩ := c
    obtain ⟨hv, hlt, hwf⟩ := Memory.wf_cons_iff.mp hm
    cases n with
    | nil => exact absurd (by simpa using h a) hv
    | cons d n =>
      obtain ⟨b, w⟩ := d
      obtain ⟨hw, hlt', hwf'⟩ := Memory.wf_cons_iff.mp hn
      have below : ∀ {l : Memory} {x y : Nat}, (∀ c ∈ l, y < c.1) → x ≤ y →
          l.read x = Config.unwritten := fun hl hxy =>
        Memory.read_of_lt_all fun c hc => lt_of_le_of_lt hxy (hl c hc)
      rcases lt_trichotomy a b with hab | rfl | hab
      · have := h a
        simp only [Memory.read_cons, if_true, if_neg (Nat.ne_of_lt hab)] at this
        exact absurd (this.trans (below hlt' (le_of_lt hab))) hv
      · have hvw : v = w := by simpa using h a
        subst hvw
        congr 1
        refine ih hwf hwf' fun x => ?_
        by_cases hx : x = a
        · subst hx; rw [below hlt le_rfl, below hlt' le_rfl]
        · simpa [hx] using h x
      · have := h b
        simp only [Memory.read_cons, if_true, if_neg (Nat.ne_of_lt hab)] at this
        exact absurd (this.symm.trans (below hlt (le_of_lt hab))) hw

/-! ### Many writes -/

@[simp] theorem Memory.writeAll_nil (m : Memory) : m.writeAll [] = m := rfl

@[simp] theorem Memory.writeAll_cons (m : Memory) (c : Host.Cell) (l : List Host.Cell) :
    m.writeAll (c :: l) = (m.write c.1 c.2).writeAll l := rfl

theorem Memory.writeAll_wf {m : Memory} (hm : m.wf = true) (l : List Host.Cell) :
    (m.writeAll l).wf = true := by
  induction l generalizing m with
  | nil => exact hm
  | cons c l ih => exact ih (Memory.write_wf hm _ _)

theorem Memory.writeAll_inRange {m : Memory} (hm : m.inRange = true) {l : List Host.Cell}
    (hl : ∀ c ∈ l, c.1 < Config.memorySize) : (m.writeAll l).inRange = true := by
  induction l generalizing m with
  | nil => exact hm
  | cons c l ih =>
    exact ih (Memory.write_inRange hm (hl c (by simp)) _) fun d hd => hl d (by simp [hd])

/-- An address that none of the writes names reads as before. -/
theorem Memory.read_writeAll_of_notMem {m : Memory} (hm : m.wf = true) {l : List Host.Cell} {a : Nat}
    (h : ∀ c ∈ l, c.1 ≠ a) : (m.writeAll l).read a = m.read a := by
  induction l generalizing m with
  | nil => rfl
  | cons c l ih =>
    rw [Memory.writeAll_cons, ih (Memory.write_wf hm _ _) fun d hd => h d (by simp [hd]),
      Memory.read_write hm, if_neg (Ne.symm (h c (by simp)))]

/-- A written address reads its byte, where every write to it carries that byte. -/
theorem Memory.read_writeAll_of_mem {m : Memory} (hm : m.wf = true) {l : List Host.Cell} {a : Nat} {v : Byte}
    (h : (a, v) ∈ l) (huniq : ∀ c ∈ l, c.1 = a → c.2 = v) : (m.writeAll l).read a = v := by
  induction l generalizing m with
  | nil => simp at h
  | cons c l ih =>
    rw [Memory.writeAll_cons]
    by_cases hl : (a, v) ∈ l
    · exact ih (Memory.write_wf hm _ _) hl fun d hd => huniq d (by simp [hd])
    · have hc : c = (a, v) := by simpa [hl, eq_comm] using h
      subst hc
      rw [Memory.read_writeAll_of_notMem (Memory.write_wf hm _ _), Memory.read_write hm, if_pos rfl]
      rintro ⟨b, w⟩ hd rfl
      exact hl (huniq (b, w) (by simp [hd]) rfl ▸ hd)

/-! ### Freed bytes (log 5) -/

/-- A freed byte reads as its free value, every other byte as before. -/
theorem State.freeBytes_read {s : State} (hm : s.mem.wf = true) (l : List Nat) (a : Nat) :
    (s.freeBytes l).mem.read a = if a ∈ l then Config.freeByte s.draws a else s.mem.read a := by
  have key : ∀ c ∈ freeCells s.draws l, c.2 = Config.freeByte s.draws c.1 ∧ c.1 ∈ l := by
    intro c hc
    simp only [freeCells, List.mem_map] at hc
    obtain ⟨x, hx, rfl⟩ := hc
    exact ⟨rfl, hx⟩
  show (s.mem.writeAll (freeCells s.draws l)).read a = _
  split_ifs with h
  · refine Memory.read_writeAll_of_mem hm (List.mem_map.mpr ⟨a, h, rfl⟩) fun c hc hca => ?_
    rw [(key c hc).1, hca]
  · exact Memory.read_writeAll_of_notMem hm fun c hc hca => h (hca ▸ (key c hc).2)

theorem State.freeBytes_wf {s : State} (hm : s.mem.wf = true) (l : List Nat) :
    (s.freeBytes l).mem.wf = true := Memory.writeAll_wf hm _

theorem State.freeBytes_inRange {s : State} (hm : s.mem.inRange = true) {l : List Nat}
    (hl : ∀ a ∈ l, a < Config.memorySize) : (s.freeBytes l).mem.inRange = true := by
  refine Memory.writeAll_inRange hm fun c hc => ?_
  simp only [freeCells, List.mem_map] at hc
  obtain ⟨x, hx, rfl⟩ := hc
  exact hl x hx

end Sys2Proof.Machine
end

