-- ==== Sys2Proof/Laws/State.lean ====
section
/-! SUPPORT. One lemma per field per shared update of `State`, each true by `rfl`, so that no later proof
unfolds a record update. -/

namespace Sys2Proof.Machine

theorem State.reject_eq (s : State) (c : ResultCode) : s.reject c = s.finish c := rfl

/-! ### `finish` (60_exceptions.md R103) -/

@[simp] theorem State.finish_irqEn (s : State) (c : ResultCode) : (s.finish c).irqEn = s.irqEn := rfl
@[simp] theorem State.finish_busy (s : State) (c : ResultCode) : (s.finish c).busy = false := rfl
@[simp] theorem State.finish_dirty (s : State) (c : ResultCode) : (s.finish c).dirty = s.dirty := rfl
@[simp] theorem State.finish_kernelValid (s : State) (c : ResultCode) :
    (s.finish c).kernelValid = s.kernelValid := rfl
@[simp] theorem State.finish_geomValid (s : State) (c : ResultCode) :
    (s.finish c).geomValid = s.geomValid := rfl
@[simp] theorem State.finish_result (s : State) (c : ResultCode) : (s.finish c).result = c.code := rfl
@[simp] theorem State.finish_done (s : State) (c : ResultCode) : (s.finish c).done = true := rfl
@[simp] theorem State.finish_overrun (s : State) (c : ResultCode) : (s.finish c).overrun = s.overrun := rfl
@[simp] theorem State.finish_arg0 (s : State) (c : ResultCode) : (s.finish c).arg0 = s.arg0 := rfl
@[simp] theorem State.finish_arg1 (s : State) (c : ResultCode) : (s.finish c).arg1 = s.arg1 := rfl
@[simp] theorem State.finish_arg2 (s : State) (c : ResultCode) : (s.finish c).arg2 = s.arg2 := rfl
@[simp] theorem State.finish_ksize (s : State) (c : ResultCode) : (s.finish c).ksize = s.ksize := rfl
@[simp] theorem State.finish_sigma (s : State) (c : ResultCode) : (s.finish c).sigma = s.sigma := rfl
@[simp] theorem State.finish_width (s : State) (c : ResultCode) : (s.finish c).width = s.width := rfl
@[simp] theorem State.finish_height (s : State) (c : ResultCode) : (s.finish c).height = s.height := rfl
@[simp] theorem State.finish_stride (s : State) (c : ResultCode) : (s.finish c).stride = s.stride := rfl
@[simp] theorem State.finish_recomputeCount (s : State) (c : ResultCode) :
    (s.finish c).recomputeCount = s.recomputeCount := rfl
@[simp] theorem State.finish_kernelKsize (s : State) (c : ResultCode) :
    (s.finish c).kernelKsize = s.kernelKsize := rfl
@[simp] theorem State.finish_kernel (s : State) (c : ResultCode) : (s.finish c).kernel = s.kernel := rfl
@[simp] theorem State.finish_latch (s : State) (c : ResultCode) : (s.finish c).latch = s.latch := rfl
@[simp] theorem State.finish_inReset (s : State) (c : ResultCode) : (s.finish c).inReset = s.inReset := rfl
@[simp] theorem State.finish_mem (s : State) (c : ResultCode) : (s.finish c).mem = s.mem := rfl
@[simp] theorem State.finish_disturbed (s : State) (c : ResultCode) :
    (s.finish c).disturbed = s.disturbed := rfl
@[simp] theorem State.finish_turns (s : State) (c : ResultCode) : (s.finish c).turns = s.turns := rfl
@[simp] theorem State.finish_reply (s : State) (c : ResultCode) : (s.finish c).reply = s.reply := rfl
@[simp] theorem State.finish_draws (s : State) (c : ResultCode) : (s.finish c).draws = s.draws := rfl
@[simp] theorem State.finish_env (s : State) (c : ResultCode) : (s.finish c).env = s.env := rfl

/-! ### `accept` (20_memory.md R41) -/

@[simp] theorem State.accept_irqEn (s : State) (w : Word) : (s.accept w).irqEn = s.irqEn := rfl
@[simp] theorem State.accept_busy (s : State) (w : Word) : (s.accept w).busy = true := rfl
@[simp] theorem State.accept_dirty (s : State) (w : Word) : (s.accept w).dirty = s.dirty := rfl
@[simp] theorem State.accept_kernelValid (s : State) (w : Word) :
    (s.accept w).kernelValid = s.kernelValid := rfl
@[simp] theorem State.accept_geomValid (s : State) (w : Word) : (s.accept w).geomValid = s.geomValid := rfl
@[simp] theorem State.accept_result (s : State) (w : Word) : (s.accept w).result = s.result := rfl
@[simp] theorem State.accept_done (s : State) (w : Word) : (s.accept w).done = s.done := rfl
@[simp] theorem State.accept_overrun (s : State) (w : Word) : (s.accept w).overrun = s.overrun := rfl
@[simp] theorem State.accept_arg0 (s : State) (w : Word) : (s.accept w).arg0 = s.arg0 := rfl
@[simp] theorem State.accept_arg1 (s : State) (w : Word) : (s.accept w).arg1 = s.arg1 := rfl
@[simp] theorem State.accept_arg2 (s : State) (w : Word) : (s.accept w).arg2 = s.arg2 := rfl
@[simp] theorem State.accept_ksize (s : State) (w : Word) : (s.accept w).ksize = s.ksize := rfl
@[simp] theorem State.accept_sigma (s : State) (w : Word) : (s.accept w).sigma = s.sigma := rfl
@[simp] theorem State.accept_width (s : State) (w : Word) : (s.accept w).width = s.width := rfl
@[simp] theorem State.accept_height (s : State) (w : Word) : (s.accept w).height = s.height := rfl
@[simp] theorem State.accept_stride (s : State) (w : Word) : (s.accept w).stride = s.stride := rfl
@[simp] theorem State.accept_recomputeCount (s : State) (w : Word) :
    (s.accept w).recomputeCount = s.recomputeCount := rfl
@[simp] theorem State.accept_kernelKsize (s : State) (w : Word) :
    (s.accept w).kernelKsize = s.kernelKsize := rfl
@[simp] theorem State.accept_kernel (s : State) (w : Word) : (s.accept w).kernel = s.kernel := rfl
@[simp] theorem State.accept_latch (s : State) (w : Word) :
    (s.accept w).latch = { cmd := w, arg0 := s.arg0, arg1 := s.arg1, arg2 := s.arg2 } := rfl
@[simp] theorem State.accept_inReset (s : State) (w : Word) : (s.accept w).inReset = s.inReset := rfl
@[simp] theorem State.accept_mem (s : State) (w : Word) : (s.accept w).mem = s.mem := rfl
@[simp] theorem State.accept_disturbed (s : State) (w : Word) : (s.accept w).disturbed = false := rfl
@[simp] theorem State.accept_turns (s : State) (w : Word) : (s.accept w).turns = s.turns := rfl
@[simp] theorem State.accept_reply (s : State) (w : Word) : (s.accept w).reply = s.reply := rfl
@[simp] theorem State.accept_draws (s : State) (w : Word) : (s.accept w).draws = s.draws := rfl
@[simp] theorem State.accept_env (s : State) (w : Word) : (s.accept w).env = s.env := rfl

/-! ### `storeParameters` (41_kernel_cache.md R75) -/

@[simp] theorem State.storeParameters_irqEn (s : State) (ks : Nat) (sb : Word) :
    (s.storeParameters ks sb).irqEn = s.irqEn := rfl
@[simp] theorem State.storeParameters_busy (s : State) (ks : Nat) (sb : Word) :
    (s.storeParameters ks sb).busy = s.busy := rfl
@[simp] theorem State.storeParameters_dirty (s : State) (ks : Nat) (sb : Word) :
    (s.storeParameters ks sb).dirty = (s.dirty || s.parametersDiffer ks sb) := rfl
@[simp] theorem State.storeParameters_kernelValid (s : State) (ks : Nat) (sb : Word) :
    (s.storeParameters ks sb).kernelValid = s.kernelValid := rfl
@[simp] theorem State.storeParameters_geomValid (s : State) (ks : Nat) (sb : Word) :
    (s.storeParameters ks sb).geomValid = s.geomValid := rfl
@[simp] theorem State.storeParameters_result (s : State) (ks : Nat) (sb : Word) :
    (s.storeParameters ks sb).result = s.result := rfl
@[simp] theorem State.storeParameters_done (s : State) (ks : Nat) (sb : Word) :
    (s.storeParameters ks sb).done = s.done := rfl
@[simp] theorem State.storeParameters_overrun (s : State) (ks : Nat) (sb : Word) :
    (s.storeParameters ks sb).overrun = s.overrun := rfl
@[simp] theorem State.storeParameters_arg0 (s : State) (ks : Nat) (sb : Word) :
    (s.storeParameters ks sb).arg0 = s.arg0 := rfl
@[simp] theorem State.storeParameters_arg1 (s : State) (ks : Nat) (sb : Word) :
    (s.storeParameters ks sb).arg1 = s.arg1 := rfl
@[simp] theorem State.storeParameters_arg2 (s : State) (ks : Nat) (sb : Word) :
    (s.storeParameters ks sb).arg2 = s.arg2 := rfl
@[simp] theorem State.storeParameters_ksize (s : State) (ks : Nat) (sb : Word) :
    (s.storeParameters ks sb).ksize = BitVec.ofNat 2 ks := rfl
@[simp] theorem State.storeParameters_sigma (s : State) (ks : Nat) (sb : Word) :
    (s.storeParameters ks sb).sigma = sb := rfl
@[simp] theorem State.storeParameters_width (s : State) (ks : Nat) (sb : Word) :
    (s.storeParameters ks sb).width = s.width := rfl
@[simp] theorem State.storeParameters_height (s : State) (ks : Nat) (sb : Word) :
    (s.storeParameters ks sb).height = s.height := rfl
@[simp] theorem State.storeParameters_stride (s : State) (ks : Nat) (sb : Word) :
    (s.storeParameters ks sb).stride = s.stride := rfl
@[simp] theorem State.storeParameters_recomputeCount (s : State) (ks : Nat) (sb : Word) :
    (s.storeParameters ks sb).recomputeCount = s.recomputeCount := rfl
@[simp] theorem State.storeParameters_kernelKsize (s : State) (ks : Nat) (sb : Word) :
    (s.storeParameters ks sb).kernelKsize = s.kernelKsize := rfl
@[simp] theorem State.storeParameters_kernel (s : State) (ks : Nat) (sb : Word) :
    (s.storeParameters ks sb).kernel = s.kernel := rfl
@[simp] theorem State.storeParameters_latch (s : State) (ks : Nat) (sb : Word) :
    (s.storeParameters ks sb).latch = s.latch := rfl
@[simp] theorem State.storeParameters_inReset (s : State) (ks : Nat) (sb : Word) :
    (s.storeParameters ks sb).inReset = s.inReset := rfl
@[simp] theorem State.storeParameters_mem (s : State) (ks : Nat) (sb : Word) :
    (s.storeParameters ks sb).mem = s.mem := rfl
@[simp] theorem State.storeParameters_disturbed (s : State) (ks : Nat) (sb : Word) :
    (s.storeParameters ks sb).disturbed = s.disturbed := rfl
@[simp] theorem State.storeParameters_turns (s : State) (ks : Nat) (sb : Word) :
    (s.storeParameters ks sb).turns = s.turns := rfl
@[simp] theorem State.storeParameters_reply (s : State) (ks : Nat) (sb : Word) :
    (s.storeParameters ks sb).reply = s.reply := rfl
@[simp] theorem State.storeParameters_draws (s : State) (ks : Nat) (sb : Word) :
    (s.storeParameters ks sb).draws = s.draws := rfl
@[simp] theorem State.storeParameters_env (s : State) (ks : Nat) (sb : Word) :
    (s.storeParameters ks sb).env = s.env := rfl

/-! ### `storeGeometry` (42_convolution_engine.md R85) -/

@[simp] theorem State.storeGeometry_irqEn (s : State) (w h st : Nat) :
    (s.storeGeometry w h st).irqEn = s.irqEn := rfl
@[simp] theorem State.storeGeometry_busy (s : State) (w h st : Nat) :
    (s.storeGeometry w h st).busy = s.busy := rfl
@[simp] theorem State.storeGeometry_dirty (s : State) (w h st : Nat) :
    (s.storeGeometry w h st).dirty = s.dirty := rfl
@[simp] theorem State.storeGeometry_kernelValid (s : State) (w h st : Nat) :
    (s.storeGeometry w h st).kernelValid = s.kernelValid := rfl
@[simp] theorem State.storeGeometry_geomValid (s : State) (w h st : Nat) :
    (s.storeGeometry w h st).geomValid = true := rfl
@[simp] theorem State.storeGeometry_result (s : State) (w h st : Nat) :
    (s.storeGeometry w h st).result = s.result := rfl
@[simp] theorem State.storeGeometry_done (s : State) (w h st : Nat) :
    (s.storeGeometry w h st).done = s.done := rfl
@[simp] theorem State.storeGeometry_overrun (s : State) (w h st : Nat) :
    (s.storeGeometry w h st).overrun = s.overrun := rfl
@[simp] theorem State.storeGeometry_arg0 (s : State) (w h st : Nat) :
    (s.storeGeometry w h st).arg0 = s.arg0 := rfl
@[simp] theorem State.storeGeometry_arg1 (s : State) (w h st : Nat) :
    (s.storeGeometry w h st).arg1 = s.arg1 := rfl
@[simp] theorem State.storeGeometry_arg2 (s : State) (w h st : Nat) :
    (s.storeGeometry w h st).arg2 = s.arg2 := rfl
@[simp] theorem State.storeGeometry_ksize (s : State) (w h st : Nat) :
    (s.storeGeometry w h st).ksize = s.ksize := rfl
@[simp] theorem State.storeGeometry_sigma (s : State) (w h st : Nat) :
    (s.storeGeometry w h st).sigma = s.sigma := rfl
@[simp] theorem State.storeGeometry_width (s : State) (w h st : Nat) :
    (s.storeGeometry w h st).width = BitVec.ofNat 16 w := rfl
@[simp] theorem State.storeGeometry_height (s : State) (w h st : Nat) :
    (s.storeGeometry w h st).height = BitVec.ofNat 16 h := rfl
@[simp] theorem State.storeGeometry_stride (s : State) (w h st : Nat) :
    (s.storeGeometry w h st).stride = BitVec.ofNat 32 st := rfl
@[simp] theorem State.storeGeometry_recomputeCount (s : State) (w h st : Nat) :
    (s.storeGeometry w h st).recomputeCount = s.recomputeCount := rfl
@[simp] theorem State.storeGeometry_kernelKsize (s : State) (w h st : Nat) :
    (s.storeGeometry w h st).kernelKsize = s.kernelKsize := rfl
@[simp] theorem State.storeGeometry_kernel (s : State) (w h st : Nat) :
    (s.storeGeometry w h st).kernel = s.kernel := rfl
@[simp] theorem State.storeGeometry_latch (s : State) (w h st : Nat) :
    (s.storeGeometry w h st).latch = s.latch := rfl
@[simp] theorem State.storeGeometry_inReset (s : State) (w h st : Nat) :
    (s.storeGeometry w h st).inReset = s.inReset := rfl
@[simp] theorem State.storeGeometry_mem (s : State) (w h st : Nat) :
    (s.storeGeometry w h st).mem = s.mem := rfl
@[simp] theorem State.storeGeometry_disturbed (s : State) (w h st : Nat) :
    (s.storeGeometry w h st).disturbed = s.disturbed := rfl
@[simp] theorem State.storeGeometry_turns (s : State) (w h st : Nat) :
    (s.storeGeometry w h st).turns = s.turns := rfl
@[simp] theorem State.storeGeometry_reply (s : State) (w h st : Nat) :
    (s.storeGeometry w h st).reply = s.reply := rfl
@[simp] theorem State.storeGeometry_draws (s : State) (w h st : Nat) :
    (s.storeGeometry w h st).draws = s.draws := rfl
@[simp] theorem State.storeGeometry_env (s : State) (w h st : Nat) :
    (s.storeGeometry w h st).env = s.env := rfl

/-! ### `recompute` (41_kernel_cache.md R78, R79) -/

@[simp] theorem State.recompute_irqEn (s : State) : s.recompute.irqEn = s.irqEn := rfl
@[simp] theorem State.recompute_busy (s : State) : s.recompute.busy = s.busy := rfl
@[simp] theorem State.recompute_dirty (s : State) : s.recompute.dirty = false := rfl
@[simp] theorem State.recompute_kernelValid (s : State) : s.recompute.kernelValid = true := rfl
@[simp] theorem State.recompute_geomValid (s : State) : s.recompute.geomValid = s.geomValid := rfl
@[simp] theorem State.recompute_result (s : State) : s.recompute.result = s.result := rfl
@[simp] theorem State.recompute_done (s : State) : s.recompute.done = s.done := rfl
@[simp] theorem State.recompute_overrun (s : State) : s.recompute.overrun = s.overrun := rfl
@[simp] theorem State.recompute_arg0 (s : State) : s.recompute.arg0 = s.arg0 := rfl
@[simp] theorem State.recompute_arg1 (s : State) : s.recompute.arg1 = s.arg1 := rfl
@[simp] theorem State.recompute_arg2 (s : State) : s.recompute.arg2 = s.arg2 := rfl
@[simp] theorem State.recompute_ksize (s : State) : s.recompute.ksize = s.ksize := rfl
@[simp] theorem State.recompute_sigma (s : State) : s.recompute.sigma = s.sigma := rfl
@[simp] theorem State.recompute_width (s : State) : s.recompute.width = s.width := rfl
@[simp] theorem State.recompute_height (s : State) : s.recompute.height = s.height := rfl
@[simp] theorem State.recompute_stride (s : State) : s.recompute.stride = s.stride := rfl
@[simp] theorem State.recompute_recomputeCount (s : State) :
    s.recompute.recomputeCount = s.recomputeCount + 1#32 := rfl
@[simp] theorem State.recompute_kernelKsize (s : State) : s.recompute.kernelKsize = s.ksize := rfl
@[simp] theorem State.recompute_kernel (s : State) : s.recompute.kernel = kernelFor s.ksize s.sigma := rfl
@[simp] theorem State.recompute_latch (s : State) : s.recompute.latch = s.latch := rfl
@[simp] theorem State.recompute_inReset (s : State) : s.recompute.inReset = s.inReset := rfl
@[simp] theorem State.recompute_mem (s : State) : s.recompute.mem = s.mem := rfl
@[simp] theorem State.recompute_disturbed (s : State) : s.recompute.disturbed = s.disturbed := rfl
@[simp] theorem State.recompute_turns (s : State) : s.recompute.turns = s.turns := rfl
@[simp] theorem State.recompute_reply (s : State) : s.recompute.reply = s.reply := rfl
@[simp] theorem State.recompute_draws (s : State) : s.recompute.draws = s.draws := rfl
@[simp] theorem State.recompute_env (s : State) : s.recompute.env = s.env := rfl

/-! ### `freeBytes` (log 5) -/

@[simp] theorem State.freeBytes_irqEn (s : State) (l : List Nat) : (s.freeBytes l).irqEn = s.irqEn := rfl
@[simp] theorem State.freeBytes_busy (s : State) (l : List Nat) : (s.freeBytes l).busy = s.busy := rfl
@[simp] theorem State.freeBytes_dirty (s : State) (l : List Nat) : (s.freeBytes l).dirty = s.dirty := rfl
@[simp] theorem State.freeBytes_kernelValid (s : State) (l : List Nat) :
    (s.freeBytes l).kernelValid = s.kernelValid := rfl
@[simp] theorem State.freeBytes_geomValid (s : State) (l : List Nat) :
    (s.freeBytes l).geomValid = s.geomValid := rfl
@[simp] theorem State.freeBytes_result (s : State) (l : List Nat) : (s.freeBytes l).result = s.result := rfl
@[simp] theorem State.freeBytes_done (s : State) (l : List Nat) : (s.freeBytes l).done = s.done := rfl
@[simp] theorem State.freeBytes_overrun (s : State) (l : List Nat) :
    (s.freeBytes l).overrun = s.overrun := rfl
@[simp] theorem State.freeBytes_arg0 (s : State) (l : List Nat) : (s.freeBytes l).arg0 = s.arg0 := rfl
@[simp] theorem State.freeBytes_arg1 (s : State) (l : List Nat) : (s.freeBytes l).arg1 = s.arg1 := rfl
@[simp] theorem State.freeBytes_arg2 (s : State) (l : List Nat) : (s.freeBytes l).arg2 = s.arg2 := rfl
@[simp] theorem State.freeBytes_ksize (s : State) (l : List Nat) : (s.freeBytes l).ksize = s.ksize := rfl
@[simp] theorem State.freeBytes_sigma (s : State) (l : List Nat) : (s.freeBytes l).sigma = s.sigma := rfl
@[simp] theorem State.freeBytes_width (s : State) (l : List Nat) : (s.freeBytes l).width = s.width := rfl
@[simp] theorem State.freeBytes_height (s : State) (l : List Nat) : (s.freeBytes l).height = s.height := rfl
@[simp] theorem State.freeBytes_stride (s : State) (l : List Nat) : (s.freeBytes l).stride = s.stride := rfl
@[simp] theorem State.freeBytes_recomputeCount (s : State) (l : List Nat) :
    (s.freeBytes l).recomputeCount = s.recomputeCount := rfl
@[simp] theorem State.freeBytes_kernelKsize (s : State) (l : List Nat) :
    (s.freeBytes l).kernelKsize = s.kernelKsize := rfl
@[simp] theorem State.freeBytes_kernel (s : State) (l : List Nat) : (s.freeBytes l).kernel = s.kernel := rfl
@[simp] theorem State.freeBytes_latch (s : State) (l : List Nat) : (s.freeBytes l).latch = s.latch := rfl
@[simp] theorem State.freeBytes_inReset (s : State) (l : List Nat) :
    (s.freeBytes l).inReset = s.inReset := rfl
@[simp] theorem State.freeBytes_mem (s : State) (l : List Nat) :
    (s.freeBytes l).mem = s.mem.writeAll (freeCells s.draws l) := rfl
@[simp] theorem State.freeBytes_disturbed (s : State) (l : List Nat) :
    (s.freeBytes l).disturbed = s.disturbed := rfl
@[simp] theorem State.freeBytes_turns (s : State) (l : List Nat) : (s.freeBytes l).turns = s.turns := rfl
@[simp] theorem State.freeBytes_reply (s : State) (l : List Nat) : (s.freeBytes l).reply = s.reply := rfl
@[simp] theorem State.freeBytes_draws (s : State) (l : List Nat) : (s.freeBytes l).draws = s.draws + 1 := rfl
@[simp] theorem State.freeBytes_env (s : State) (l : List Nat) : (s.freeBytes l).env = s.env := rfl

/-! ### `countAccesses` (log 6) -/

@[simp] theorem State.countAccesses_irqEn (s : State) : s.countAccesses.irqEn = s.irqEn := rfl
@[simp] theorem State.countAccesses_busy (s : State) : s.countAccesses.busy = s.busy := rfl
@[simp] theorem State.countAccesses_dirty (s : State) : s.countAccesses.dirty = s.dirty := rfl
@[simp] theorem State.countAccesses_kernelValid (s : State) :
    s.countAccesses.kernelValid = s.kernelValid := rfl
@[simp] theorem State.countAccesses_geomValid (s : State) : s.countAccesses.geomValid = s.geomValid := rfl
@[simp] theorem State.countAccesses_result (s : State) : s.countAccesses.result = s.result := rfl
@[simp] theorem State.countAccesses_done (s : State) : s.countAccesses.done = s.done := rfl
@[simp] theorem State.countAccesses_overrun (s : State) : s.countAccesses.overrun = s.overrun := rfl
@[simp] theorem State.countAccesses_arg0 (s : State) : s.countAccesses.arg0 = s.arg0 := rfl
@[simp] theorem State.countAccesses_arg1 (s : State) : s.countAccesses.arg1 = s.arg1 := rfl
@[simp] theorem State.countAccesses_arg2 (s : State) : s.countAccesses.arg2 = s.arg2 := rfl
@[simp] theorem State.countAccesses_ksize (s : State) : s.countAccesses.ksize = s.ksize := rfl
@[simp] theorem State.countAccesses_sigma (s : State) : s.countAccesses.sigma = s.sigma := rfl
@[simp] theorem State.countAccesses_width (s : State) : s.countAccesses.width = s.width := rfl
@[simp] theorem State.countAccesses_height (s : State) : s.countAccesses.height = s.height := rfl
@[simp] theorem State.countAccesses_stride (s : State) : s.countAccesses.stride = s.stride := rfl
@[simp] theorem State.countAccesses_recomputeCount (s : State) :
    s.countAccesses.recomputeCount = s.recomputeCount := rfl
@[simp] theorem State.countAccesses_kernelKsize (s : State) :
    s.countAccesses.kernelKsize = s.kernelKsize := rfl
@[simp] theorem State.countAccesses_kernel (s : State) : s.countAccesses.kernel = s.kernel := rfl
@[simp] theorem State.countAccesses_latch (s : State) : s.countAccesses.latch = s.latch := rfl
@[simp] theorem State.countAccesses_inReset (s : State) : s.countAccesses.inReset = s.inReset := rfl
@[simp] theorem State.countAccesses_mem (s : State) : s.countAccesses.mem = s.mem := rfl
@[simp] theorem State.countAccesses_disturbed (s : State) : s.countAccesses.disturbed = s.disturbed := rfl
@[simp] theorem State.countAccesses_turns (s : State) : s.countAccesses.turns = s.turns := rfl
@[simp] theorem State.countAccesses_reply (s : State) : s.countAccesses.reply = s.reply := rfl
@[simp] theorem State.countAccesses_draws (s : State) : s.countAccesses.draws = s.draws := rfl
@[simp] theorem State.countAccesses_env (s : State) :
    s.countAccesses.env = { s.env with accesses := s.env.accesses + s.accessCount } := rfl

/-! ### `ensureKernel` (42_convolution_engine.md R93): a recompute when dirty, else nothing -/

theorem State.ensureKernel_of_dirty {s : State} (h : s.dirty = true) : s.ensureKernel = s.recompute := by
  simp [State.ensureKernel, h]

theorem State.ensureKernel_of_clean {s : State} (h : s.dirty = false) : s.ensureKernel = s := by
  simp [State.ensureKernel, h]

@[simp] theorem State.ensureKernel_irqEn (s : State) : s.ensureKernel.irqEn = s.irqEn := by
  unfold State.ensureKernel; split <;> rfl
@[simp] theorem State.ensureKernel_busy (s : State) : s.ensureKernel.busy = s.busy := by
  unfold State.ensureKernel; split <;> rfl
@[simp] theorem State.ensureKernel_geomValid (s : State) : s.ensureKernel.geomValid = s.geomValid := by
  unfold State.ensureKernel; split <;> rfl
@[simp] theorem State.ensureKernel_result (s : State) : s.ensureKernel.result = s.result := by
  unfold State.ensureKernel; split <;> rfl
@[simp] theorem State.ensureKernel_done (s : State) : s.ensureKernel.done = s.done := by
  unfold State.ensureKernel; split <;> rfl
@[simp] theorem State.ensureKernel_overrun (s : State) : s.ensureKernel.overrun = s.overrun := by
  unfold State.ensureKernel; split <;> rfl
@[simp] theorem State.ensureKernel_arg0 (s : State) : s.ensureKernel.arg0 = s.arg0 := by
  unfold State.ensureKernel; split <;> rfl
@[simp] theorem State.ensureKernel_arg1 (s : State) : s.ensureKernel.arg1 = s.arg1 := by
  unfold State.ensureKernel; split <;> rfl
@[simp] theorem State.ensureKernel_arg2 (s : State) : s.ensureKernel.arg2 = s.arg2 := by
  unfold State.ensureKernel; split <;> rfl
@[simp] theorem State.ensureKernel_ksize (s : State) : s.ensureKernel.ksize = s.ksize := by
  unfold State.ensureKernel; split <;> rfl
@[simp] theorem State.ensureKernel_sigma (s : State) : s.ensureKernel.sigma = s.sigma := by
  unfold State.ensureKernel; split <;> rfl
@[simp] theorem State.ensureKernel_width (s : State) : s.ensureKernel.width = s.width := by
  unfold State.ensureKernel; split <;> rfl
@[simp] theorem State.ensureKernel_height (s : State) : s.ensureKernel.height = s.height := by
  unfold State.ensureKernel; split <;> rfl
@[simp] theorem State.ensureKernel_stride (s : State) : s.ensureKernel.stride = s.stride := by
  unfold State.ensureKernel; split <;> rfl
@[simp] theorem State.ensureKernel_latch (s : State) : s.ensureKernel.latch = s.latch := by
  unfold State.ensureKernel; split <;> rfl
@[simp] theorem State.ensureKernel_inReset (s : State) : s.ensureKernel.inReset = s.inReset := by
  unfold State.ensureKernel; split <;> rfl
@[simp] theorem State.ensureKernel_mem (s : State) : s.ensureKernel.mem = s.mem := by
  unfold State.ensureKernel; split <;> rfl
@[simp] theorem State.ensureKernel_disturbed (s : State) : s.ensureKernel.disturbed = s.disturbed := by
  unfold State.ensureKernel; split <;> rfl
@[simp] theorem State.ensureKernel_turns (s : State) : s.ensureKernel.turns = s.turns := by
  unfold State.ensureKernel; split <;> rfl
@[simp] theorem State.ensureKernel_reply (s : State) : s.ensureKernel.reply = s.reply := by
  unfold State.ensureKernel; split <;> rfl
@[simp] theorem State.ensureKernel_draws (s : State) : s.ensureKernel.draws = s.draws := by
  unfold State.ensureKernel; split <;> rfl
@[simp] theorem State.ensureKernel_env (s : State) : s.ensureKernel.env = s.env := by
  unfold State.ensureKernel; split <;> rfl

@[simp] theorem State.ensureKernel_dirty (s : State) : s.ensureKernel.dirty = false := by
  cases h : s.dirty <;> simp [State.ensureKernel, h]

/-! ### `convolved` (R91, R95, R121): only frame memory and the draw counter move -/

@[simp] theorem State.convolved_irqEn (s : State) : s.convolved.irqEn = s.irqEn := by
  unfold State.convolved; split <;> rfl
@[simp] theorem State.convolved_busy (s : State) : s.convolved.busy = s.busy := by
  unfold State.convolved; split <;> rfl
@[simp] theorem State.convolved_dirty (s : State) : s.convolved.dirty = s.dirty := by
  unfold State.convolved; split <;> rfl
@[simp] theorem State.convolved_kernelValid (s : State) : s.convolved.kernelValid = s.kernelValid := by
  unfold State.convolved; split <;> rfl
@[simp] theorem State.convolved_geomValid (s : State) : s.convolved.geomValid = s.geomValid := by
  unfold State.convolved; split <;> rfl
@[simp] theorem State.convolved_result (s : State) : s.convolved.result = s.result := by
  unfold State.convolved; split <;> rfl
@[simp] theorem State.convolved_done (s : State) : s.convolved.done = s.done := by
  unfold State.convolved; split <;> rfl
@[simp] theorem State.convolved_overrun (s : State) : s.convolved.overrun = s.overrun := by
  unfold State.convolved; split <;> rfl
@[simp] theorem State.convolved_arg0 (s : State) : s.convolved.arg0 = s.arg0 := by
  unfold State.convolved; split <;> rfl
@[simp] theorem State.convolved_arg1 (s : State) : s.convolved.arg1 = s.arg1 := by
  unfold State.convolved; split <;> rfl
@[simp] theorem State.convolved_arg2 (s : State) : s.convolved.arg2 = s.arg2 := by
  unfold State.convolved; split <;> rfl
@[simp] theorem State.convolved_ksize (s : State) : s.convolved.ksize = s.ksize := by
  unfold State.convolved; split <;> rfl
@[simp] theorem State.convolved_sigma (s : State) : s.convolved.sigma = s.sigma := by
  unfold State.convolved; split <;> rfl
@[simp] theorem State.convolved_width (s : State) : s.convolved.width = s.width := by
  unfold State.convolved; split <;> rfl
@[simp] theorem State.convolved_height (s : State) : s.convolved.height = s.height := by
  unfold State.convolved; split <;> rfl
@[simp] theorem State.convolved_stride (s : State) : s.convolved.stride = s.stride := by
  unfold State.convolved; split <;> rfl
@[simp] theorem State.convolved_recomputeCount (s : State) : s.convolved.recomputeCount = s.recomputeCount := by
  unfold State.convolved; split <;> rfl
@[simp] theorem State.convolved_kernelKsize (s : State) : s.convolved.kernelKsize = s.kernelKsize := by
  unfold State.convolved; split <;> rfl
@[simp] theorem State.convolved_kernel (s : State) : s.convolved.kernel = s.kernel := by
  unfold State.convolved; split <;> rfl
@[simp] theorem State.convolved_latch (s : State) : s.convolved.latch = s.latch := by
  unfold State.convolved; split <;> rfl
@[simp] theorem State.convolved_inReset (s : State) : s.convolved.inReset = s.inReset := by
  unfold State.convolved; split <;> rfl
@[simp] theorem State.convolved_disturbed (s : State) : s.convolved.disturbed = s.disturbed := by
  unfold State.convolved; split <;> rfl
@[simp] theorem State.convolved_turns (s : State) : s.convolved.turns = s.turns := by
  unfold State.convolved; split <;> rfl
@[simp] theorem State.convolved_reply (s : State) : s.convolved.reply = s.reply := by
  unfold State.convolved; split <;> rfl
@[simp] theorem State.convolved_env (s : State) : s.convolved.env = s.env := by
  unfold State.convolved; split <;> rfl

/-! ### `settle` (R52 item 4, R121): only frame memory and the draw counter move -/

@[simp] theorem State.settle_irqEn (s : State) : s.settle.irqEn = s.irqEn := by
  unfold State.settle; split <;> rfl
@[simp] theorem State.settle_busy (s : State) : s.settle.busy = s.busy := by
  unfold State.settle; split <;> rfl
@[simp] theorem State.settle_dirty (s : State) : s.settle.dirty = s.dirty := by
  unfold State.settle; split <;> rfl
@[simp] theorem State.settle_kernelValid (s : State) : s.settle.kernelValid = s.kernelValid := by
  unfold State.settle; split <;> rfl
@[simp] theorem State.settle_geomValid (s : State) : s.settle.geomValid = s.geomValid := by
  unfold State.settle; split <;> rfl
@[simp] theorem State.settle_result (s : State) : s.settle.result = s.result := by
  unfold State.settle; split <;> rfl
@[simp] theorem State.settle_done (s : State) : s.settle.done = s.done := by
  unfold State.settle; split <;> rfl
@[simp] theorem State.settle_overrun (s : State) : s.settle.overrun = s.overrun := by
  unfold State.settle; split <;> rfl
@[simp] theorem State.settle_arg0 (s : State) : s.settle.arg0 = s.arg0 := by
  unfold State.settle; split <;> rfl
@[simp] theorem State.settle_arg1 (s : State) : s.settle.arg1 = s.arg1 := by
  unfold State.settle; split <;> rfl
@[simp] theorem State.settle_arg2 (s : State) : s.settle.arg2 = s.arg2 := by
  unfold State.settle; split <;> rfl
@[simp] theorem State.settle_ksize (s : State) : s.settle.ksize = s.ksize := by
  unfold State.settle; split <;> rfl
@[simp] theorem State.settle_sigma (s : State) : s.settle.sigma = s.sigma := by
  unfold State.settle; split <;> rfl
@[simp] theorem State.settle_width (s : State) : s.settle.width = s.width := by
  unfold State.settle; split <;> rfl
@[simp] theorem State.settle_height (s : State) : s.settle.height = s.height := by
  unfold State.settle; split <;> rfl
@[simp] theorem State.settle_stride (s : State) : s.settle.stride = s.stride := by
  unfold State.settle; split <;> rfl
@[simp] theorem State.settle_recomputeCount (s : State) : s.settle.recomputeCount = s.recomputeCount := by
  unfold State.settle; split <;> rfl
@[simp] theorem State.settle_kernelKsize (s : State) : s.settle.kernelKsize = s.kernelKsize := by
  unfold State.settle; split <;> rfl
@[simp] theorem State.settle_kernel (s : State) : s.settle.kernel = s.kernel := by
  unfold State.settle; split <;> rfl
@[simp] theorem State.settle_latch (s : State) : s.settle.latch = s.latch := by
  unfold State.settle; split <;> rfl
@[simp] theorem State.settle_inReset (s : State) : s.settle.inReset = s.inReset := by
  unfold State.settle; split <;> rfl
@[simp] theorem State.settle_disturbed (s : State) : s.settle.disturbed = s.disturbed := by
  unfold State.settle; split <;> rfl
@[simp] theorem State.settle_turns (s : State) : s.settle.turns = s.turns := by
  unfold State.settle; split <;> rfl
@[simp] theorem State.settle_reply (s : State) : s.settle.reply = s.reply := by
  unfold State.settle; split <;> rfl
@[simp] theorem State.settle_env (s : State) : s.settle.env = s.env := by
  unfold State.settle; split <;> rfl

/-! ### `convolve` (R93) -/

@[simp] theorem State.convolve_irqEn (s : State) : s.convolve.irqEn = s.irqEn := by simp [State.convolve]
@[simp] theorem State.convolve_busy (s : State) : s.convolve.busy = false := by simp [State.convolve]
@[simp] theorem State.convolve_dirty (s : State) : s.convolve.dirty = s.dirty := by simp [State.convolve]
@[simp] theorem State.convolve_kernelValid (s : State) :
    s.convolve.kernelValid = s.kernelValid := by simp [State.convolve]
@[simp] theorem State.convolve_geomValid (s : State) : s.convolve.geomValid = s.geomValid := by simp [State.convolve]
@[simp] theorem State.convolve_result (s : State) :
    s.convolve.result = (if s.busError then ResultCode.bus else ResultCode.ok).code := by simp [State.convolve]
@[simp] theorem State.convolve_done (s : State) : s.convolve.done = true := by simp [State.convolve]
@[simp] theorem State.convolve_overrun (s : State) : s.convolve.overrun = s.overrun := by simp [State.convolve]
@[simp] theorem State.convolve_arg0 (s : State) : s.convolve.arg0 = s.arg0 := by simp [State.convolve]
@[simp] theorem State.convolve_arg1 (s : State) : s.convolve.arg1 = s.arg1 := by simp [State.convolve]
@[simp] theorem State.convolve_arg2 (s : State) : s.convolve.arg2 = s.arg2 := by simp [State.convolve]
@[simp] theorem State.convolve_ksize (s : State) : s.convolve.ksize = s.ksize := by simp [State.convolve]
@[simp] theorem State.convolve_sigma (s : State) : s.convolve.sigma = s.sigma := by simp [State.convolve]
@[simp] theorem State.convolve_width (s : State) : s.convolve.width = s.width := by simp [State.convolve]
@[simp] theorem State.convolve_height (s : State) : s.convolve.height = s.height := by simp [State.convolve]
@[simp] theorem State.convolve_stride (s : State) : s.convolve.stride = s.stride := by simp [State.convolve]
@[simp] theorem State.convolve_recomputeCount (s : State) :
    s.convolve.recomputeCount = s.recomputeCount := by simp [State.convolve]
@[simp] theorem State.convolve_kernelKsize (s : State) :
    s.convolve.kernelKsize = s.kernelKsize := by simp [State.convolve]
@[simp] theorem State.convolve_kernel (s : State) : s.convolve.kernel = s.kernel := by simp [State.convolve]
@[simp] theorem State.convolve_latch (s : State) : s.convolve.latch = s.latch := by simp [State.convolve]
@[simp] theorem State.convolve_inReset (s : State) : s.convolve.inReset = s.inReset := by simp [State.convolve]
@[simp] theorem State.convolve_mem (s : State) : s.convolve.mem = s.convolved.mem := by simp [State.convolve]
@[simp] theorem State.convolve_disturbed (s : State) : s.convolve.disturbed = s.disturbed := by simp [State.convolve]
@[simp] theorem State.convolve_turns (s : State) : s.convolve.turns = s.turns := by simp [State.convolve]
@[simp] theorem State.convolve_reply (s : State) : s.convolve.reply = s.reply := by simp [State.convolve]
@[simp] theorem State.convolve_draws (s : State) : s.convolve.draws = s.convolved.draws := by simp [State.convolve]

/-! ### `resetBlock` (70_reset_and_hazards.md R118) -/

@[simp] theorem State.resetBlock_irqEn (s : State) : s.resetBlock.irqEn = State.reset.irqEn := rfl
@[simp] theorem State.resetBlock_busy (s : State) : s.resetBlock.busy = State.reset.busy := rfl
@[simp] theorem State.resetBlock_dirty (s : State) : s.resetBlock.dirty = State.reset.dirty := rfl
@[simp] theorem State.resetBlock_kernelValid (s : State) : s.resetBlock.kernelValid = State.reset.kernelValid := rfl
@[simp] theorem State.resetBlock_geomValid (s : State) : s.resetBlock.geomValid = State.reset.geomValid := rfl
@[simp] theorem State.resetBlock_result (s : State) : s.resetBlock.result = State.reset.result := rfl
@[simp] theorem State.resetBlock_done (s : State) : s.resetBlock.done = State.reset.done := rfl
@[simp] theorem State.resetBlock_overrun (s : State) : s.resetBlock.overrun = State.reset.overrun := rfl
@[simp] theorem State.resetBlock_arg0 (s : State) : s.resetBlock.arg0 = State.reset.arg0 := rfl
@[simp] theorem State.resetBlock_arg1 (s : State) : s.resetBlock.arg1 = State.reset.arg1 := rfl
@[simp] theorem State.resetBlock_arg2 (s : State) : s.resetBlock.arg2 = State.reset.arg2 := rfl
@[simp] theorem State.resetBlock_ksize (s : State) : s.resetBlock.ksize = State.reset.ksize := rfl
@[simp] theorem State.resetBlock_sigma (s : State) : s.resetBlock.sigma = State.reset.sigma := rfl
@[simp] theorem State.resetBlock_width (s : State) : s.resetBlock.width = State.reset.width := rfl
@[simp] theorem State.resetBlock_height (s : State) : s.resetBlock.height = State.reset.height := rfl
@[simp] theorem State.resetBlock_stride (s : State) : s.resetBlock.stride = State.reset.stride := rfl
@[simp] theorem State.resetBlock_recomputeCount (s : State) : s.resetBlock.recomputeCount = State.reset.recomputeCount := rfl
@[simp] theorem State.resetBlock_kernelKsize (s : State) : s.resetBlock.kernelKsize = State.reset.kernelKsize := rfl
@[simp] theorem State.resetBlock_kernel (s : State) : s.resetBlock.kernel = State.reset.kernel := rfl
@[simp] theorem State.resetBlock_latch (s : State) : s.resetBlock.latch = State.reset.latch := rfl
@[simp] theorem State.resetBlock_inReset (s : State) : s.resetBlock.inReset = true := rfl
@[simp] theorem State.resetBlock_mem (s : State) : s.resetBlock.mem = s.mem := rfl
@[simp] theorem State.resetBlock_disturbed (s : State) : s.resetBlock.disturbed = State.reset.disturbed := rfl
@[simp] theorem State.resetBlock_turns (s : State) : s.resetBlock.turns = s.turns := rfl
@[simp] theorem State.resetBlock_reply (s : State) : s.resetBlock.reply = s.reply := rfl
@[simp] theorem State.resetBlock_draws (s : State) : s.resetBlock.draws = s.draws := rfl
@[simp] theorem State.resetBlock_env (s : State) : s.resetBlock.env = s.env := rfl

end Sys2Proof.Machine
end

