-- ==== Sys2Proof/Laws/Geometry.lean ====
section
/-! SUPPORT. Frame addressing: which samples are interior, their addresses, and what of them a recompute or
a completion leaves alone (42_convolution_engine.md R86 to R88, R94). -/

namespace Sys2Proof.Machine

theorem mem_taps {s : Nat} {t : Nat × Nat} : t ∈ taps s ↔ t.1 < s ∧ t.2 < s := by
  obtain ⟨i, j⟩ := t
  simp [taps]

theorem length_taps (s : Nat) : (taps s).length = s * s := by
  simp [taps, List.length_flatMap]

theorem State.mem_interior {s : State} {p : Sample} : p ∈ s.interior ↔ s.Interior p := by
  obtain ⟨x, y, c⟩ := p
  simp only [State.interior, State.Interior, State.interiorRows, State.interiorColumns, Config.channels,
    List.mem_flatMap, List.mem_range, List.mem_map, Sample.mk.injEq]
  constructor
  · rintro ⟨y', hy, x', hx, c', hc, rfl, rfl, rfl⟩
    omega
  · rintro ⟨hy, hx, hc⟩
    exact ⟨y, by omega, x, by omega, c, hc, rfl, rfl, rfl⟩

/-- The interior is part of the frame (R87). -/
theorem State.Interior.inFrame {s : State} {p : Sample} (h : s.Interior p) : s.InFrame p :=
  ⟨by have := h.1; omega, by have := h.2.1; omega, h.2.2⟩

/-- Every footprint lies inside the frame (R88). -/
theorem State.Interior.tap_inFrame {s : State} {p : Sample} (h : s.Interior p) {t : Nat × Nat}
    (ht : t ∈ taps s.kernelSide) : s.InFrame (p.tap t) := by
  obtain ⟨h1, h2⟩ := mem_taps.mp ht
  obtain ⟨hy, hx, hc⟩ := h
  exact ⟨by simp only [Sample.tap]; omega, by simp only [Sample.tap]; omega, hc⟩

theorem State.inFrameRegion_iff {s : State} {a : Nat} :
    s.inFrameRegion a = true ↔ s.baseOperand ≤ a ∧ a < s.baseOperand + s.frameBytes := by
  simp [State.inFrameRegion]

theorem State.isDevice_iff {s : State} {a : Nat} :
    s.isDevice a = true ↔ a < Config.memorySize ∧ ∃ r ∈ s.notPlain, r.base ≤ a ∧ a < r.base + r.size := by
  simp [State.isDevice]

theorem State.bufferBad_iff {s : State} :
    s.bufferBad = true ↔ s.lengthOperand < s.frameBytes ∨ 2 ^ 32 < s.baseOperand + s.frameBytes := by
  unfold State.bufferBad
  rw [Bool.or_eq_true, decide_eq_true_iff, decide_eq_true_iff]
  rfl

theorem State.mem_frameRegion {s : State} {a : Nat} : a ∈ s.frameRegion ↔ s.inFrameRegion a = true := by
  simp only [State.frameRegion, State.inFrameRegion_iff, List.mem_map, List.mem_range]
  constructor
  · rintro ⟨k, hk, rfl⟩
    omega
  · rintro ⟨h1, h2⟩
    exact ⟨a - s.baseOperand, by omega, by omega⟩

/-- Every sample of the frame lies in the frame region (R94). -/
theorem State.InFrame.address_inRegion {s : State} (hg : s.GeometryOk) {p : Sample} (h : s.InFrame p) :
    s.inFrameRegion (s.address p) = true := by
  obtain ⟨hy, hx, hc⟩ := h
  unfold State.GeometryOk at hg
  have hrow : (p.y + 1) * s.stride.toNat ≤ s.height.toNat * s.stride.toNat :=
    Nat.mul_le_mul_right _ hy
  have : s.frameBytes = s.height.toNat * s.stride.toNat := Nat.mul_comm _ _
  have : (p.y + 1) * s.stride.toNat = p.y * s.stride.toNat + s.stride.toNat := by ring
  rw [State.inFrameRegion_iff]
  simp only [State.address]
  omega

/-- Distinct samples of the frame have distinct addresses (R86). -/
theorem State.address_injective {s : State} (hg : s.GeometryOk) {p q : Sample} (hp : s.InFrame p)
    (hq : s.InFrame q) (h : s.address p = s.address q) : p = q := by
  obtain ⟨x, y, c⟩ := p
  obtain ⟨x', y', c'⟩ := q
  obtain ⟨-, hx, hc⟩ := hp
  obtain ⟨-, hx', hc'⟩ := hq
  unfold State.GeometryOk at hg
  simp only [State.address] at h hx hc hx' hc'
  have row : ∀ {u v a b : Nat}, u * s.stride.toNat + a = v * s.stride.toNat + b → a < s.stride.toNat →
      b < s.stride.toNat → u = v := by
    intro u v a b hab ha hb
    rcases lt_trichotomy u v with huv | huv | huv
    · have := Nat.mul_le_mul_right s.stride.toNat huv
      rw [Nat.succ_mul] at this
      omega
    · exact huv
    · have := Nat.mul_le_mul_right s.stride.toNat huv
      rw [Nat.succ_mul] at this
      omega
  have hy : y = y' := row (a := 3 * x + c) (b := 3 * x' + c') (by omega) (by omega) (by omega)
  subst hy
  simp only [Sample.mk.injEq, true_and]
  omega

/-- A range meets the frame region exactly when some byte of the region lies in it. -/
theorem State.frameOnDevice_iff {s : State} :
    s.frameOnDevice = true ↔ ∃ a, s.inFrameRegion a = true ∧ s.isDevice a = true := by
  simp only [State.frameOnDevice, State.inFrameRegion_iff, State.isDevice_iff, List.any_eq_true,
    decide_eq_true_eq]
  constructor
  · rintro ⟨r, hr, h⟩
    exact ⟨max r.base s.baseOperand, by omega, by omega, r, hr, by omega⟩
  · rintro ⟨a, ha, hlt, r, hr, h⟩
    exact ⟨r, hr, by omega⟩

theorem State.frameOnDevice_eq_false_iff {s : State} : s.frameOnDevice = false ↔ s.FrameIsPlain := by
  rw [← Bool.not_eq_true, State.frameOnDevice_iff]
  push Not
  simp [State.FrameIsPlain]

theorem State.borrowBroken_eq_false_iff {s : State} : s.borrowBroken = false ↔ s.BorrowKept := by
  rw [State.borrowBroken, Bool.or_eq_false_iff, State.frameOnDevice_eq_false_iff, State.BorrowKept]

theorem State.dutyBroken_eq_false_iff {s : State} : s.dutyBroken = false ↔ s.DutiesKept := by
  rw [State.dutyBroken, Bool.or_eq_false_iff, Bool.not_eq_false', State.borrowBroken_eq_false_iff,
    State.DutiesKept]

/-- `PROCESS_FRAME` reaches its convolution exactly when its checks pass (R93, R94). -/
theorem State.framePlan_eq_convolve_iff {s : State} : s.framePlan = .convolve ↔ s.FrameAccepted := by
  have hb : s.bufferBad = false ↔
      s.frameBytes ≤ s.lengthOperand ∧ s.baseOperand + s.frameBytes ≤ 2 ^ 32 := by
    rw [← Bool.not_eq_true, State.bufferBad_iff]
    omega
  rw [State.FrameAccepted, ← hb]
  unfold State.framePlan
  split_ifs with h1 h2 h3 <;> simp_all

/-! ### What a recompute does not move -/

@[simp] theorem State.ensureKernel_kernelSide (s : State) : s.ensureKernel.kernelSide = s.kernelSide := by
  simp [State.kernelSide]

@[simp] theorem State.ensureKernel_frameBytes (s : State) : s.ensureKernel.frameBytes = s.frameBytes := by
  simp [State.frameBytes]

@[simp] theorem State.ensureKernel_baseOperand (s : State) :
    s.ensureKernel.baseOperand = s.baseOperand := by
  simp [State.baseOperand]

@[simp] theorem State.ensureKernel_address (s : State) (p : Sample) :
    s.ensureKernel.address p = s.address p := by
  simp [State.address]

@[simp] theorem State.ensureKernel_interior (s : State) : s.ensureKernel.interior = s.interior := by
  simp [State.interior, State.interiorRows, State.interiorColumns]

@[simp] theorem State.ensureKernel_Interior (s : State) (p : Sample) :
    s.ensureKernel.Interior p ↔ s.Interior p := by
  simp [State.Interior]

@[simp] theorem State.ensureKernel_interiorAddresses (s : State) :
    s.ensureKernel.interiorAddresses = s.interiorAddresses := by
  simp only [State.interiorAddresses, State.ensureKernel_interior]
  exact List.map_congr_left fun p _ => State.ensureKernel_address s p

@[simp] theorem State.ensureKernel_inFrameRegion (s : State) (a : Nat) :
    s.ensureKernel.inFrameRegion a = s.inFrameRegion a := by
  simp [State.inFrameRegion]

@[simp] theorem State.ensureKernel_frameRegion (s : State) :
    s.ensureKernel.frameRegion = s.frameRegion := by
  simp [State.frameRegion]

@[simp] theorem State.ensureKernel_notPlain (s : State) : s.ensureKernel.notPlain = s.notPlain := by
  simp [State.notPlain]

@[simp] theorem State.ensureKernel_isDevice (s : State) (a : Nat) :
    s.ensureKernel.isDevice a = s.isDevice a := by
  simp [State.isDevice]

@[simp] theorem State.ensureKernel_frameOnDevice (s : State) :
    s.ensureKernel.frameOnDevice = s.frameOnDevice := by
  simp [State.frameOnDevice]

@[simp] theorem State.ensureKernel_accessCount (s : State) :
    s.ensureKernel.accessCount = s.accessCount := by
  simp [State.accessCount]

@[simp] theorem State.ensureKernel_busError (s : State) : s.ensureKernel.busError = s.busError := by
  simp [State.busError]

@[simp] theorem State.ensureKernel_borrowBroken (s : State) :
    s.ensureKernel.borrowBroken = s.borrowBroken := by
  simp [State.borrowBroken]

@[simp] theorem State.ensureKernel_dutyBroken (s : State) : s.ensureKernel.dutyBroken = s.dutyBroken := by
  simp [State.dutyBroken]

@[simp] theorem State.ensureKernel_unspecifiedBytes (s : State) :
    s.ensureKernel.unspecifiedBytes = s.unspecifiedBytes := by
  simp [State.unspecifiedBytes]

@[simp] theorem State.ensureKernel_GeometryOk (s : State) : s.ensureKernel.GeometryOk ↔ s.GeometryOk := by
  simp [State.GeometryOk]

/-! ### Frame memory after the convolution -/

theorem State.mem_unspecifiedBytes {s : State} {a : Nat} : a ∈ s.unspecifiedBytes ↔ s.Unsettled a := by
  have hint : a ∈ s.interiorAddresses ↔ ∃ p, s.Interior p ∧ s.address p = a := by
    simp [State.interiorAddresses, State.mem_interior]
  have hlt : a < Config.memorySize ↔ a < 2 ^ 32 := Iff.rfl
  unfold State.unspecifiedBytes State.Unsettled
  rw [List.mem_filter, decide_eq_true_iff, hlt, ← State.frameOnDevice_eq_false_iff]
  cases s.frameOnDevice <;> simp [hint, State.mem_frameRegion, and_comm]

/-- Every unspecified byte is in the frame region, for a legal geometry. -/
theorem State.unspecifiedBytes_inRegion {s : State} (hg : s.GeometryOk) {a : Nat}
    (h : a ∈ s.unspecifiedBytes) : s.inFrameRegion a = true := by
  rcases (State.mem_unspecifiedBytes.mp h).2 with ⟨-, p, hp, rfl⟩ | ⟨-, h⟩
  · exact hp.inFrame.address_inRegion hg
  · exact h

/-- Every unspecified byte exists. -/
theorem State.unspecifiedBytes_lt {s : State} {a : Nat} (h : a ∈ s.unspecifiedBytes) :
    a < Config.memorySize := (State.mem_unspecifiedBytes.mp h).1

/-- With H-2 and H-3 kept a command that convolves nothing leaves the frame alone. -/
theorem State.settle_of_kept {s : State} (h : s.BorrowKept) : s.settle = s := by
  simp [State.settle, State.borrowBroken_eq_false_iff.mpr h]

/-- With H-2 or H-3 broken it leaves the unspecified bytes free (R52 item 4). -/
theorem State.settle_of_broken {s : State} (h : ¬s.BorrowKept) :
    s.settle = s.freeBytes s.unspecifiedBytes := by
  rw [← State.borrowBroken_eq_false_iff, Bool.not_eq_false] at h
  simp [State.settle, h]

theorem State.settle_wf {s : State} (hm : s.mem.wf = true) : s.settle.mem.wf = true := by
  unfold State.settle
  split
  · exact State.freeBytes_wf hm _
  · exact hm

theorem State.settle_inRange {s : State} (hm : s.mem.inRange = true) : s.settle.mem.inRange = true := by
  unfold State.settle
  split
  · exact State.freeBytes_inRange hm fun a ha => State.unspecifiedBytes_lt ha
  · exact hm

/-- The bytes that `settle` keeps. -/
theorem State.settle_read_of_not_unsettled {s : State} (hm : s.mem.wf = true) {a : Nat}
    (h : ¬s.Unsettled a) : s.settle.mem.read a = s.mem.read a := by
  unfold State.settle
  split
  · rw [State.freeBytes_read hm, if_neg (fun hmem => h (State.mem_unspecifiedBytes.mp hmem))]
  · rfl

/-- The spec lemma of `convolved`, for the frame as the rules of R91 give it: each interior byte holds its
output, every other byte its old value. -/
theorem State.convolved_read_of_kept {s : State} (hm : s.mem.wf = true) (hg : s.GeometryOk)
    (hb : s.busError = false) (hd : s.dutyBroken = false) :
    (∀ p, s.Interior p → s.convolved.mem.read (s.address p) = s.out s.mem p) ∧
      ∀ a, (∀ p, s.Interior p → s.address p ≠ a) → s.convolved.mem.read a = s.mem.read a := by
  have hc : s.convolved.mem = s.mem.writeAll s.outputs := by simp [State.convolved, hb, hd]
  rw [hc]
  refine ⟨fun p hp => Memory.read_writeAll_of_mem hm
    (List.mem_map.mpr ⟨p, State.mem_interior.mpr hp, rfl⟩) ?_, fun a ha =>
    Memory.read_writeAll_of_notMem hm ?_⟩
  · intro c hc hca
    obtain ⟨q, hq, rfl⟩ := List.mem_map.mp hc
    rw [State.address_injective hg (State.mem_interior.mp hq).inFrame hp.inFrame hca]
  · intro c hc
    obtain ⟨q, hq, rfl⟩ := List.mem_map.mp hc
    exact ha q (State.mem_interior.mp hq)

/-- The spec lemma of `convolved` where a memory error or a broken duty leaves bytes unspecified (R95,
R121): those are free values, every other byte its old value. -/
theorem State.convolved_read_of_free {s : State} (hm : s.mem.wf = true)
    (h : s.busError = true ∨ s.dutyBroken = true) (a : Nat) :
    s.convolved.mem.read a =
      if a ∈ s.unspecifiedBytes then Config.freeByte s.draws a else s.mem.read a := by
  have hc : s.convolved = s.freeBytes s.unspecifiedBytes := by
    unfold State.convolved
    rw [if_pos (by rcases h with h | h <;> simp [h])]
  rw [hc, State.freeBytes_read hm]

theorem State.convolved_wf {s : State} (hm : s.mem.wf = true) : s.convolved.mem.wf = true := by
  unfold State.convolved
  split
  · exact State.freeBytes_wf hm _
  · exact Memory.writeAll_wf hm _

/-- The convolution writes only inside the frame region (20_memory.md R46), whatever its outcome. -/
theorem State.convolved_read_outside {s : State} (hm : s.mem.wf = true) (hg : s.GeometryOk) {a : Nat}
    (ha : s.inFrameRegion a = false) : s.convolved.mem.read a = s.mem.read a := by
  by_cases h : s.busError = true ∨ s.dutyBroken = true
  · rw [State.convolved_read_of_free hm h, if_neg]
    intro hmem
    simp [State.unspecifiedBytes_inRegion hg hmem] at ha
  · push Not at h
    simp only [ne_eq, Bool.not_eq_true] at h
    refine (State.convolved_read_of_kept hm hg h.1 h.2).2 a fun p hp hpa => ?_
    simp [← hpa, hp.inFrame.address_inRegion hg] at ha

theorem State.convolved_inRange {s : State} (hm : s.mem.inRange = true) (hg : s.GeometryOk)
    (htop : s.baseOperand + s.frameBytes ≤ Config.memorySize) : s.convolved.mem.inRange = true := by
  have region : ∀ a, s.inFrameRegion a = true → a < Config.memorySize := by
    intro a ha
    have := (State.inFrameRegion_iff.mp ha).2
    omega
  unfold State.convolved
  split
  · exact State.freeBytes_inRange hm fun a ha => State.unspecifiedBytes_lt ha
  · refine Memory.writeAll_inRange hm fun c hc => ?_
    obtain ⟨p, hp, rfl⟩ := List.mem_map.mp hc
    exact region _ ((State.mem_interior.mp hp).inFrame.address_inRegion hg)

end Sys2Proof.Machine
end

