-- ==== Sys2Proof/Laws/Commands.lean ====
section
/-! SUPPORT. What a command, an engine turn and a step can do, said once (41_kernel_cache.md R75,
42_convolution_engine.md R85, R93, 60_exceptions.md R103). -/

namespace Sys2Proof.Machine

theorem sigmaOk_iff {w : Word} : sigmaOk w = true ↔ 0x3DCCCCCD ≤ w.toNat ∧ w.toNat ≤ 0x42C80000 := by
  simp [sigmaOk]

theorem State.parametersDiffer_iff {s : State} {ks : Nat} {sb : Word} :
    s.parametersDiffer ks sb = true ↔ ks ≠ s.ksize.toNat ∨ sb ≠ s.sigma := by
  simp [State.parametersDiffer]

theorem execConfigure_of_bad {ks : Nat} {s : State} (h : 2 < ks ∨ sigmaOk s.sigmaOperand = false) :
    execConfigure ks s = .next (s.finish .invalidParameter) := by
  unfold execConfigure
  split_ifs with h1 h2
  · rfl
  · rfl
  · simp_all

theorem execConfigure_of_ok {ks : Nat} {s : State} (h1 : ks ≤ 2) (h2 : sigmaOk s.sigmaOperand = true) :
    execConfigure ks s = .next ((s.storeParameters ks s.sigmaOperand).finish .ok) := by
  simp [execConfigure, h2, Nat.not_lt.mpr h1]

/-- `SET_GEOMETRY` either stores a legal geometry or completes with a code of its own and nothing else. -/
theorem execSetGeometry_cases (s : State) :
    (∃ c, c ≠ .ok ∧ c ≠ .allocation ∧ execSetGeometry s = .next (s.finish c)) ∨
      (1 ≤ s.widthOperand ∧ s.widthOperand ≤ 0xFFFF ∧ 1 ≤ s.heightOperand ∧ s.heightOperand ≤ 0xFFFF ∧
        s.strideOperand = 3 * s.widthOperand ∧
        execSetGeometry s =
          .next ((s.storeGeometry s.widthOperand s.heightOperand s.strideOperand).finish .ok)) := by
  unfold execSetGeometry
  simp only [State.reject_eq]
  split_ifs with h1 h2 h3
  · exact .inl ⟨.missingGeometry, by decide, by decide, rfl⟩
  · exact .inl ⟨.invalidGeometry, by decide, by decide, rfl⟩
  · exact .inl ⟨.invalidGeometry, by decide, by decide, rfl⟩
  · exact .inr ⟨by omega, by omega, by omega, by omega, by omega, rfl⟩

/-- `PROCESS_FRAME` either completes with its frame settled and nothing else changed, or its checks pass and
it convolves. -/
theorem execProcessFrame_cases (s : State) :
    (∃ c, (c = .ok ∧ s.ksize = 0#2 ∨ c = .missingGeometry ∨ c = .buffer) ∧ ¬s.FrameAccepted ∧
      execProcessFrame s = .next (s.settle.finish c)) ∨
      (s.FrameAccepted ∧ execProcessFrame s = .next s.ensureKernel.convolve) := by
  have hplan := @State.framePlan_eq_convolve_iff s
  unfold execProcessFrame
  cases h : s.framePlan with
  | convolve => exact .inr ⟨hplan.mp h, rfl⟩
  | identity =>
    refine .inl ⟨.ok, .inl ⟨rfl, ?_⟩, fun ha => by simp [hplan.mpr ha] at h, rfl⟩
    unfold State.framePlan at h
    split_ifs at h
    assumption
  | reject c =>
    refine .inl ⟨c, .inr ?_, fun ha => by simp [hplan.mpr ha] at h, rfl⟩
    unfold State.framePlan at h
    split_ifs at h <;> simp_all

theorem execProcessFrame_of_accepted {s : State} (h : s.FrameAccepted) :
    execProcessFrame s = .next s.ensureKernel.convolve := by
  simp [execProcessFrame, State.framePlan_eq_convolve_iff.mpr h]

/-- Every command answers a next state, in which the engine is idle. -/
theorem exec_idle (i : Instr) (s : State) : ∃ t, exec i s = .next t ∧ t.busy = false ∧ t.done = true := by
  cases i with
  | configure ks =>
    by_cases h : 2 < ks ∨ sigmaOk s.sigmaOperand = false
    · exact ⟨_, execConfigure_of_bad h, rfl, rfl⟩
    · push Not at h
      exact ⟨_, execConfigure_of_ok h.1 (by simpa using h.2), rfl, rfl⟩
  | setGeometry =>
    rcases execSetGeometry_cases s with ⟨c, -, -, h⟩ | ⟨-, -, -, -, -, h⟩
    · exact ⟨_, h, rfl, rfl⟩
    · exact ⟨_, h, rfl, rfl⟩
  | processFrame =>
    rcases execProcessFrame_cases s with ⟨c, -, -, h⟩ | ⟨-, h⟩
    · exact ⟨_, h, rfl, rfl⟩
    · exact ⟨_, h, by simp, by simp⟩

/-- An engine turn answers the state after the running command. -/
theorem engineStep_eq (s : State) : engineStep s = .next s.afterCommand := by
  unfold State.afterCommand
  cases h : engineStep s with
  | next t => rfl
  | fault r => cases r
  | refused r =>
    exfalso
    unfold engineStep at h
    split at h
    · split at h
      · obtain ⟨t, ht, -⟩ := exec_idle ‹_› s
        simp [ht] at h
      · cases h
    · cases h

/-- An idle engine does nothing. -/
theorem State.afterCommand_of_idle {s : State} (h : s.busy = false) : s.afterCommand = s := by
  simp [State.afterCommand, engineStep, h]

/-- After an engine turn the engine is idle. -/
theorem State.afterCommand_busy (s : State) : s.afterCommand.busy = false := by
  cases h : s.busy with
  | false => rw [State.afterCommand_of_idle h, h]
  | true =>
    have hs := engineStep_eq s
    unfold engineStep at hs
    rw [if_pos h] at hs
    split at hs
    · obtain ⟨t, ht, hb, -⟩ := exec_idle ‹_› s
      rw [ht] at hs
      rw [← Host.Outcome.next.inj hs]
      exact hb
    · rw [← Host.Outcome.next.inj hs]
      rfl

/-- What an engine's turn leaves: nothing new when idle, a bare completion, or the effect of one of the three
commands, a `PROCESS_FRAME` either settling its frame or convolving it. -/
theorem State.afterCommand_cases (s : State) :
    (s.busy = false ∧ s.afterCommand = s) ∨
    (s.busy = true ∧ ∃ c, c ≠ .allocation ∧ s.afterCommand = s.finish c) ∨
    (s.busy = true ∧ ∃ ks, decode s.latch.cmd = .ok (.configure ks) ∧ ks ≤ 2 ∧
      sigmaOk s.sigmaOperand = true ∧
      s.afterCommand = (s.storeParameters ks s.sigmaOperand).finish .ok) ∨
    (s.busy = true ∧ decode s.latch.cmd = .ok .setGeometry ∧ 1 ≤ s.widthOperand ∧
      s.widthOperand ≤ 0xFFFF ∧ 1 ≤ s.heightOperand ∧ s.heightOperand ≤ 0xFFFF ∧
      s.strideOperand = 3 * s.widthOperand ∧
      s.afterCommand = (s.storeGeometry s.widthOperand s.heightOperand s.strideOperand).finish .ok) ∨
    (s.busy = true ∧ decode s.latch.cmd = .ok .processFrame ∧ ¬s.FrameAccepted ∧
      ∃ c, c ≠ .allocation ∧ s.afterCommand = s.settle.finish c) ∨
    (s.busy = true ∧ decode s.latch.cmd = .ok .processFrame ∧ s.FrameAccepted ∧
      s.afterCommand = s.ensureKernel.convolve) := by
  cases hb : s.busy with
  | false => exact .inl ⟨rfl, State.afterCommand_of_idle hb⟩
  | true =>
    have he := engineStep_eq s
    unfold engineStep State.latched at he
    rw [if_pos hb] at he
    split at he
    · rename_i i hd
      cases i with
      | configure ks =>
        change execConfigure ks s = _ at he
        by_cases h : 2 < ks ∨ sigmaOk s.sigmaOperand = false
        · rw [execConfigure_of_bad h] at he
          exact .inr (.inl ⟨rfl, _, by decide, (Host.Outcome.next.inj he).symm⟩)
        · push Not at h
          have hs : sigmaOk s.sigmaOperand = true := by simpa using h.2
          rw [execConfigure_of_ok h.1 hs] at he
          exact .inr (.inr (.inl ⟨rfl, ks, hd, h.1, hs, (Host.Outcome.next.inj he).symm⟩))
      | setGeometry =>
        change execSetGeometry s = _ at he
        rcases execSetGeometry_cases s with ⟨c, -, hc, h⟩ | ⟨h1, h2, h3, h4, h5, h⟩
        · rw [h] at he
          exact .inr (.inl ⟨rfl, c, hc, (Host.Outcome.next.inj he).symm⟩)
        · rw [h] at he
          exact .inr (.inr (.inr (.inl ⟨rfl, hd, h1, h2, h3, h4, h5, (Host.Outcome.next.inj he).symm⟩)))
      | processFrame =>
        change execProcessFrame s = _ at he
        rcases execProcessFrame_cases s with ⟨c, hc, hf, h⟩ | ⟨hf, h⟩
        · rw [h] at he
          exact .inr (.inr (.inr (.inr (.inl ⟨rfl, hd, hf, c,
            by rcases hc with ⟨rfl, -⟩ | rfl | rfl <;> decide, (Host.Outcome.next.inj he).symm⟩))))
        · rw [h] at he
          exact .inr (.inr (.inr (.inr (.inr ⟨rfl, hd, hf, (Host.Outcome.next.inj he).symm⟩))))
    · exact .inr (.inl ⟨rfl, _, by decide, (Host.Outcome.next.inj he).symm⟩)

/-- The fields a convolution does not write, and those of its completion (42_convolution_engine.md R93). -/
theorem State.convolve_eq (s : State) :
    s.convolve = { s with
      mem := s.convolved.mem
      draws := s.convolved.draws
      env := s.convolve.env
      result := s.convolve.result
      busy := false
      done := true } := by
  unfold State.convolve State.convolved State.freeBytes State.countAccesses State.finish
  split <;> rfl

/-- The fields that settling a frame does not write (R52 item 4). -/
theorem State.settle_eq (s : State) :
    s.settle = { s with mem := s.settle.mem, draws := s.settle.draws } := by
  unfold State.settle State.freeBytes
  split <;> rfl

/-- The fields a lazy refill does not write (41_kernel_cache.md R78). -/
theorem State.ensureKernel_eq (s : State) :
    s.ensureKernel = { s with
      kernel := s.ensureKernel.kernel
      kernelKsize := s.ensureKernel.kernelKsize
      kernelValid := s.ensureKernel.kernelValid
      recomputeCount := s.ensureKernel.recomputeCount
      dirty := false } := by
  unfold State.ensureKernel
  split
  · rfl
  · rename_i h
    rw [Bool.not_eq_true] at h
    rw [← h]

/-- A lazy refill either recomputes a stale kernel or changes nothing. -/
theorem State.ensureKernel_cases (s : State) :
    (s.dirty = true ∧ s.ensureKernel = s.recompute) ∨ (s.dirty = false ∧ s.ensureKernel = s) := by
  cases h : s.dirty <;> simp [State.ensureKernel, h]

/-- Inversion of one step: the engine's turn with the schedule used up, or the first turn of the schedule. -/
theorem step_cases {s t : State} (h : step s = .next t) :
    (s.turns = [] ∧ t = s.afterCommand) ∨
      (∃ a rest, s.turns = .host a :: rest ∧ t = ({ s with turns := rest } : State).hostAccess a) ∨
      (∃ rest, s.turns = .engine :: rest ∧ t = ({ s with turns := rest } : State).afterCommand) ∨
      (∃ rest, s.turns = .assertReset :: rest ∧
        t = ({ s with turns := rest } : State).abandonFrame.resetBlock) ∨
      (∃ rest, s.turns = .releaseReset :: rest ∧ t = { s with turns := rest, inReset := false }) := by
  unfold step at h
  cases hs : s.turns with
  | nil =>
    simp only [hs, engineStep_eq, Host.Outcome.next.injEq] at h
    exact .inl ⟨rfl, h.symm⟩
  | cons a rest =>
    simp only [hs] at h
    cases a with
    | host a =>
      simp only [takeTurn, Host.Outcome.next.injEq] at h
      exact .inr (.inl ⟨a, rest, rfl, h.symm⟩)
    | engine =>
      simp only [takeTurn, engineStep_eq, Host.Outcome.next.injEq] at h
      exact .inr (.inr (.inl ⟨rest, rfl, h.symm⟩))
    | assertReset =>
      simp only [takeTurn, Host.Outcome.next.injEq] at h
      exact .inr (.inr (.inr (.inl ⟨rest, rfl, h.symm⟩)))
    | releaseReset =>
      simp only [takeTurn, Host.Outcome.next.injEq] at h
      exact .inr (.inr (.inr (.inr ⟨rest, rfl, h.symm⟩)))

end Sys2Proof.Machine
end

