-- ==== Sys2Proof/Laws/Host.lean ====
section
/-! SUPPORT. What an access of the host and an assertion of reset can do, said once (20_memory.md R37 to
R44, R52; 70_reset_and_hazards.md R118, R119). -/

namespace Sys2Proof.Machine

/-- A named register stands at one offset. -/
theorem Reg.offset_of_ofOffset {off : BitVec 8} {r : Reg} (h : Reg.ofOffset off = some r) :
    off = r.offset := by
  have all : ∀ n : Fin 256, ∀ r, Reg.ofOffset (BitVec.ofFin n) = some r → BitVec.ofFin n = r.offset := by
    intro n r h
    have hn : Reg.ofOffset (BitVec.ofFin n) = none ∨
        (Reg.ofOffset (BitVec.ofFin n)).map Reg.offset = some (BitVec.ofFin n) := by
      clear h r
      revert n
      decide +kernel
    rcases hn with hn | hn
    · simp [hn] at h
    · simpa [h, eq_comm] using hn
  exact all off.toFin r h

/-- A legal transaction has a word offset and all four byte enables (R37). -/
theorem legalAccess_iff {off : BitVec 8} {enables : BitVec 4} :
    legalAccess off enables = true ↔ off.toNat % 4 = 0 ∧ enables = 0xF#4 := by
  have : off.extractLsb' 0 2 = 0#2 ↔ off.toNat % 4 = 0 := by
    constructor
    · intro h
      have := congrArg BitVec.toNat h
      simpa using this
    · intro h
      apply BitVec.eq_of_toNat_eq
      simpa using h
  simp [legalAccess, this]

/-- A register read writes its answer and the draw counter alone (R39). -/
theorem State.regRead_eq (s : State) (off : BitVec 8) (enables : BitVec 4) :
    s.regRead off enables =
      { s with reply := (s.regRead off enables).reply, draws := (s.regRead off enables).draws } := by
  unfold State.regRead
  cases legalAccess off enables with
  | false => rfl
  | true =>
    cases Reg.ofOffset off with
    | none => rfl
    | some r => cases hb : s.busy <;> rfl

/-- A register write is an error, or is ignored, or writes the named register at its offset (R37). -/
theorem State.regWrite_cases (s : State) (off : BitVec 8) (v : Word) (enables : BitVec 4) :
    (legalAccess off enables = false ∧ s.regWrite off v enables = { s with reply := .error }) ∨
    (legalAccess off enables = true ∧ (s.inReset = true ∨ Reg.ofOffset off = none) ∧
      s.regWrite off v enables = { s with reply := .done }) ∨
    (legalAccess off enables = true ∧ s.inReset = false ∧
      ∃ r, off = r.offset ∧ s.regWrite off v enables = { s.writeReg v r with reply := .done }) := by
  unfold State.regWrite
  split_ifs with h1 h2
  · exact .inl ⟨by simpa using h1, rfl⟩
  · exact .inr (.inl ⟨by simpa using h1, .inl h2, rfl⟩)
  · split
    · exact .inr (.inl ⟨by simpa using h1, .inr ‹_›, rfl⟩)
    · exact .inr (.inr ⟨by simpa using h1, by simpa using h2, _, Reg.offset_of_ofOffset ‹_›, rfl⟩)

/-- A host read of frame memory writes its answer and the draw counter alone (R52). -/
theorem State.hostRead_eq (s : State) (addr : Word) :
    s.hostRead addr =
      { s with reply := (s.hostRead addr).reply, draws := (s.hostRead addr).draws } := by
  unfold State.hostRead
  split_ifs <;> rfl

/-- A host write of frame memory writes the byte and the note of log 9 alone (R52). -/
theorem State.hostWrite_cases (s : State) (addr : Word) (v : Byte) :
    (s.isDevice addr.toNat = true ∧ s.hostWrite addr v = { s with reply := .done }) ∨
    (s.isDevice addr.toNat = false ∧ s.hostWrite addr v =
      { s with
        mem := s.mem.write addr.toNat v
        disturbed := s.disturbed || s.borrowed addr.toNat
        reply := .done }) := by
  cases h : s.isDevice addr.toNat <;> simp [State.hostWrite, h]

/-- A `PROCESS_FRAME` runs when the block is busy and the latch spells it. -/
theorem State.frameRunning_iff {s : State} :
    s.frameRunning = true ↔ s.busy = true ∧ decode s.latch.cmd = .ok .processFrame := by
  unfold State.frameRunning State.latched
  cases s.busy with
  | false => simp
  | true =>
    split
    · simp_all
    · simp_all

/-- What reset leaves of frame memory: the unspecified bytes free where a running `PROCESS_FRAME` passes its
checks (R119; log 11), its frame settled where it does not, else nothing new. -/
theorem State.abandonFrame_cases (s : State) :
    (s.busy = true ∧ decode s.latch.cmd = .ok .processFrame ∧ s.FrameAccepted ∧
      s.abandonFrame = s.freeBytes s.unspecifiedBytes) ∨
    (s.busy = true ∧ decode s.latch.cmd = .ok .processFrame ∧ ¬s.FrameAccepted ∧
      s.abandonFrame = s.settle) ∨
    (¬(s.busy = true ∧ decode s.latch.cmd = .ok .processFrame) ∧ s.abandonFrame = s) := by
  unfold State.abandonFrame
  split_ifs with hr hp
  · exact .inl ⟨(State.frameRunning_iff.mp hr).1, (State.frameRunning_iff.mp hr).2,
      State.framePlan_eq_convolve_iff.mp hp, rfl⟩
  · exact .inr (.inl ⟨(State.frameRunning_iff.mp hr).1, (State.frameRunning_iff.mp hr).2,
      fun h => hp (State.framePlan_eq_convolve_iff.mpr h), rfl⟩)
  · exact .inr (.inr ⟨fun h => hr (State.frameRunning_iff.mpr h), rfl⟩)

end Sys2Proof.Machine
end

