-- ==== Sys2Proof/Laws/PerInstr.lean ====
section
/-! SUPPORT. The families of per-instruction statements. `TableRow`: the word of every command of the format
matches its row of spec/opcode_table.json (30_encoding.md R59). -/

namespace Sys2Proof.Laws.TableRow

/-- The row's `mask` (spec/opcode_table.json). -/
def mask : Instr → Word
  | .configure _ => 0xFFFFFCFF#32
  | .setGeometry => 0xFFFFFFFF#32
  | .processFrame => 0xFFFFFFFF#32

/-- The row's `match` (spec/opcode_table.json). -/
def pattern : Instr → Word
  | .configure _ => 0x00000001#32
  | .setGeometry => 0x00000002#32
  | .processFrame => 0x00000003#32

/-- The encoded word carries the row's fixed bits. -/
def Statement (i : Instr) : Prop := encode i &&& mask i = pattern i

theorem configure (ks : Nat) : Statement (.configure ks) := by
  have key : ∀ b : BitVec 2, assemble 0 b 0x01#8 &&& 0xFFFFFCFF#32 = 0x00000001#32 := by decide
  exact key (BitVec.ofNat 2 ks)

theorem setGeometry : Statement .setGeometry := by
  show encode .setGeometry &&& mask .setGeometry = pattern .setGeometry
  decide

theorem processFrame : Statement .processFrame := by
  show encode .processFrame &&& mask .processFrame = pattern .processFrame
  decide

end Sys2Proof.Laws.TableRow
end

