-- ==== Sys2Proof/Tests/Slice0.lean ====
section
/-! SUPPORT. The model's own tests. Expected values are those of 95_test_vectors.md (each theorem names the
vector) or are worked out by hand from the rule it names. Then, for each statement of
Sys2Proof/Certificates/Slice0/Obligations.lean that has hypotheses, states and operands that meet them. -/

namespace Sys2Proof.Tests

open Sys2Proof.Machine

/-! ### Small states -/

/-- 95_test_vectors.md section 2.2, kernelsize 1, sigma 1.5. -/
def kernel1 : Vector Word 25 :=
  ⟨([0x3DA1A144#32, 0x3DFC14F5#32, 0x3DA1A144#32, 0x3DFC14F5#32, 0x3E44938F#32, 0x3DFC14F5#32,
    0x3DA1A144#32, 0x3DFC14F5#32, 0x3DA1A144#32] ++ List.replicate 16 0#32).toArray, by simp⟩

/-- The "clean" start state of 95_test_vectors.md section 2.4. -/
def clean : State :=
  { State.reset with
    ksize := 1#2
    sigma := 0x3FC00000#32
    dirty := false
    kernelValid := true
    kernelKsize := 1#2
    kernel := kernel1
    recomputeCount := 1#32 }

/-- The geometry `w`, `h`, `3w` set. -/
def withFrame (s : State) (w h : Nat) : State := s.storeGeometry w h (3 * w)

/-- The command `cmd` accepted with these arguments. -/
def latched (s : State) (cmd a0 a1 a2 : Word) : State :=
  { s with busy := true, latch := { cmd := cmd, arg0 := a0, arg1 := a1, arg2 := a2 } }

/-- `s` with this schedule. -/
def scheduled (s : State) (turns : List Turn) : State := { s with turns := turns }

/-- A `PROCESS_FRAME` of a 4 × 4 frame at 0x80, kernelsize 1, is running; its interior is pixel (0, 0). -/
def running (s : State) : State := latched (withFrame s 4 4) 3#32 0x80#32 48#32 0#32

/-- The same before its kernel was ever built: the start state of PF15, but for its base. -/
def stale : State := { clean with dirty := true, kernelValid := false, kernelKsize := 0#2,
                                  kernel := State.reset.kernel, recomputeCount := 0#32 }

/-- The first word of the frame of `running` is a device's. -/
def onDevice (s : State) : State := { s with env := { s.env with devices := [⟨0x80, 4⟩] } }

/-- The register window (`P_REG_BASE`) covers the last byte of the frame of `running`. -/
def underWindow (s : State) : State := { s with env := { s.env with regBase := 0xAF } }

/-- A `PROCESS_FRAME` of the same frame runs with kernelsize 0, and the host has written its region. -/
def disturbedIdentity : State := { running clean with ksize := 0#2, disturbed := true }

/-- The first access errs. -/
def erring (s : State) : State := { s with env := { s.env with memErrors := [0] } }

/-! ### Encoding -/

theorem test_ill_formed_kernel_size_refused : Instr.wellFormed (.configure 4) = false := by decide

theorem test_well_formed : Instr.wellFormed (.configure 3) = true ∧ Instr.wellFormed .setGeometry = true ∧
    Instr.wellFormed .processFrame = true := by decide

/-- R57, bit by bit: RSV, KS, OP. -/
theorem test_decode_configure :
    decode (0b0000000000000000000000#22 ++ 0b10#2 ++ 0b00000001#8) = .ok (.configure 2) := by decide

theorem test_decode_setGeometry :
    decode (0b0000000000000000000000#22 ++ 0b00#2 ++ 0b00000010#8) = .ok .setGeometry := by decide

theorem test_decode_processFrame :
    decode (0b0000000000000000000000#22 ++ 0b00#2 ++ 0b00000011#8) = .ok .processFrame := by decide

/-- 95 section 2.7, the illegal rows that `Obligations.SpecCommandWordsDecode` does not name. -/
theorem test_decode_illegal : decode 0x00000004#32 = .error .reservedOpcode ∧
    decode 0x000000FF#32 = .error .reservedOpcode ∧ decode 0x00001001#32 = .error .reservedBits ∧
    decode 0x00000202#32 = .error .kernelSizeField := by decide

theorem test_table_word : decodeTableWord 32 0x00000201 = some (.configure 2) ∧
    decodeTableWord 32 0x00000203 = none := by decide

theorem test_encode : encode (.configure 1) = 0x00000101#32 ∧ encode .setGeometry = 0x00000002#32 ∧
    encode .processFrame = 0x00000003#32 := by decide

/-! ### One command -/

/-- CF2: 0.099999994 is below the range. -/
theorem test_configure_low_sigma :
    ((latched State.reset 0x101#32 0x3DCCCCCC#32 0#32 0#32).afterCommand).readReg .status = 0x00000202#32 := by
  decide

/-- CF16: a kernelsize that differs makes the clean kernel stale. -/
theorem test_configure_stale :
    ((latched clean 0x201#32 0x3FC00000#32 0#32 0#32).afterCommand).readReg .status = 0x00000006#32 ∧
      ((latched clean 0x201#32 0x3FC00000#32 0#32 0#32).afterCommand).readReg .ksize = 2#32 := by decide

/-- SG4: the zero test comes before the size test. -/
theorem test_setGeometry_zero_first :
    ((latched State.reset 2#32 0#32 70000#32 5#32).afterCommand).readReg .status = 0x00000302#32 := by decide

/-- SG12: a rejected geometry leaves the old one in force. -/
theorem test_setGeometry_rejected :
    ((latched (withFrame State.reset 4 4) 2#32 4#32 4#32 16#32).afterCommand).readReg .status
        = 0x0000040A#32 ∧
      ((latched (withFrame State.reset 4 4) 2#32 4#32 4#32 16#32).afterCommand).readReg .stride = 12#32 := by
  decide

/-- PF14 and V1: a clean kernel over black gives 25, once per channel, and nothing else. -/
theorem test_processFrame_black :
    ((running clean).afterCommand).mem = [(0x80, 25#8), (0x81, 25#8), (0x82, 25#8)] ∧
      ((running clean).afterCommand).recomputeCount = 1#32 ∧
      ((running clean).afterCommand).readReg .status = 0x0000000C#32 := by decide +kernel

/-- PF15: a bus error on the first access; the recompute stands. -/
theorem test_processFrame_bus_error :
    ((running (erring stale)).afterCommand).readReg .status = 0x0000060C#32 ∧
      ((running (erring stale)).afterCommand).recomputeCount = 1#32 := by decide +kernel

/-- V16 to V18: the accumulator, bit for bit, with tap (0,0), (0,1) or (1,1) alone 255. -/
theorem test_accumulator :
    ([0x80, 0x83, 0x8F].map fun a =>
      ((running clean).accumulator [(a, 255#8)] ⟨0, 0, 0⟩).toBits64) =
    [0x407597D1C41641FE#64, 0x40806A99CF46BB0B#64, 0x40892E6AD2CBB4F7#64] := by decide +kernel

/-- 95 section 2.2: kernelsize 1, sigma 1.5. -/
theorem test_kernel_1 : kernelFor 1#2 0x3FC00000#32 = kernel1 := by decide +kernel

/-- 95 section 2.2: kernelsize 2, sigma 0.1, with its subnormal weights. -/
theorem test_kernel_2 : (kernelFor 2#2 0x3DCCCCCD#32).toList =
    List.replicate 7 0#32 ++ [0x1B#32] ++ List.replicate 3 0#32 ++ [0x1B#32, 0x3F800000#32, 0x1B#32] ++
      List.replicate 3 0#32 ++ [0x1B#32] ++ List.replicate 7 0#32 := by decide +kernel

/-- 95 section 2.1: the round trips of 0, 25, 128, 220 and 255. -/
theorem test_round_trip :
    [0#8, 25#8, 128#8, 220#8, 255#8].map roundTrip = [25#8, 47#8, 141#8, 224#8, 255#8] := by decide +kernel

/-! ### The port, the interrupt, reset and memory -/

/-- RP8, and R109. -/
theorem test_ctrl_and_irq :
    (State.reset.regWrite 0x04#8 0xFFFFFFFF#32 0xF#4).readReg .ctrl = 1#32 ∧
      ((latched { State.reset with irqEn := true } 4#32 0#32 0#32 0#32).afterCommand).irq = true := by decide

/-- R37: a misaligned write, and one with a byte enable clear. -/
theorem test_illegal_transaction :
    State.reset.regWrite 0x06#8 1#32 0xF#4 = { State.reset with reply := .error } ∧
      State.reset.regWrite 0x04#8 1#32 0x7#4 = { State.reset with reply := .error } := by decide

/-- RP5 and RP6: read-only registers keep their values. -/
theorem test_read_only : (State.reset.regWrite 0x08#8 0xFFFFFFFF#32 0xF#4).readReg .status = 2#32 ∧
    (State.reset.regWrite 0x20#8 2#32 0xF#4).readReg .ksize = 0#32 := by decide

/-- R42: the dropped word. -/
theorem test_overrun : ((running clean).writeCmd 2#32).readReg .events = 2#32 ∧
    ((running clean).writeCmd 2#32).latch.cmd = 3#32 := by decide

/-- R40: lane 0 is the least significant byte, and the lanes make the word. -/
theorem test_lanes : lane 0x47434742#32 0 = 0x42#8 ∧ lane 0x47434742#32 3 = 0x47#8 ∧
    ofLanes 0x42#8 0x47#8 0x43#8 0x47#8 = 0x47434742#32 := by decide

/-- R16, R37, R118: while reset is asserted `SIGMA` and a reserved offset read as ever, and a write is ignored. -/
theorem test_port_in_reset :
    (State.reset.resetBlock.regRead 0x24#8 0xF#4).reply = .word 0x3F800000#32 ∧
      (State.reset.resetBlock.regRead 0xFC#8 0xF#4).reply = .word 0#32 ∧
      (State.reset.resetBlock.regWrite 0x14#8 7#32 0xF#4).arg0 = 0#32 := by decide

/-- R52 item 4, U6: a host write to the region of an identity frame draws the interior (side 1, so 3 × 3 pixels
of 3 bytes); no other byte is listed by it. -/
theorem test_disturbed_identity : disturbedIdentity.unspecifiedBytes.length = 27 ∧
    disturbedIdentity.afterCommand.draws = 1 ∧ disturbedIdentity.afterCommand.result = 0x00#8 := by decide

/-- R50, R121 H-3: the register window is not plain memory. -/
theorem test_register_window : (underWindow State.reset).isDevice 0xAE = false ∧
    (underWindow State.reset).isDevice 0xAF = true ∧ (underWindow State.reset).isDevice 0x1AE = true ∧
    (underWindow State.reset).isDevice 0x1AF = false ∧ State.reset.isDevice 0xFFFFFFFF = false := by decide

/-- PF9: a frame past the top of the address space meets no window there. -/
theorem test_region_past_the_top :
    (latched (withFrame clean 65535 65535) 3#32 0#32 0xFFFFFFFF#32 0#32).borrowBroken = false := by decide

theorem test_reset_memory : Memory.wf State.reset.mem = true := by decide

theorem test_memory_canonical : Memory.write [(3, 1#8), (7, 2#8)] 3 0#8 = [(7, 2#8)] ∧
    Memory.write [(3, 1#8), (7, 2#8)] 5 9#8 = [(3, 1#8), (5, 9#8), (7, 2#8)] := by decide

/-- The host's check: the word a row is given runs as the first instruction after reset (CF6, PF1). -/
theorem test_withFetchWord : ∃ t u, step (State.reset.withFetchWord 32 1) = .next t ∧
    t.readReg .status = 0x00000202#32 ∧ step (State.reset.withFetchWord 32 3) = .next u ∧
    u.readReg .status = 0x00000002#32 := ⟨_, _, rfl, by decide, rfl, by decide⟩

/-- P1's first command in the notation of R63: acceptance, completion, and the status read. -/
theorem test_host_notation :
    (match core.run 4 (scheduled State.reset (hostConfigure 1 0x3FC00000#32 ++ hostWait)) with
      | .next t => t.reply
      | _ => Reply.none) = .word 0x00000002#32 := by decide

/-! ### Hypotheses that are met -/

/-- No device, and the register window outside frame memory: every byte is plain. -/
theorem plain_of_no_devices {s : State} (h : s.env.devices = []) (hb : s.env.regBase = Config.memorySize) :
    s.FrameIsPlain := by
  intro a _
  simp only [State.isDevice, State.notPlain, h, hb, List.any_cons, List.any_nil, Bool.or_false,
    Bool.and_eq_false_iff, decide_eq_false_iff_not]
  omega

theorem test_witness_DecodeInvertsEncode : Instr.wellFormed (.configure 3) = true ∧
    decode 0x00000301#32 = .ok (.configure 3) := by decide

theorem test_witness_PatternsOfValuesAreExact : Fp.ofBits32 0x7F7FFFFF#32 ≠ .nan ∧
    Fp.ofBits32 0xFF800000#32 ≠ .nan ∧ Fp.ofBits32 0x80000001#32 ≠ .nan ∧
    Fp.ofBits64 0x7FF0000000000000#64 ≠ .nan := by decide +kernel

theorem test_witness_StepRunsTheLatchedCommand : (running clean).busy = true ∧
    decode (running clean).latch.cmd = .ok .processFrame ∧ (running clean).turns = [] ∧
    (scheduled (running clean) hostWait).turns = .engine :: [rd .status] ∧
    (scheduled (running clean) hostWait).busy = true ∧
    decode (latched clean 4#32 0#32 0#32 0#32).latch.cmd = .error .reservedOpcode ∧
    (latched clean 4#32 0#32 0#32 0#32).busy = true ∧
    (scheduled clean hostWait).busy = false ∧ (scheduled clean hostWait).turns = .engine :: [rd .status] := by
  decide

theorem test_witness_IllegalCommandCompletesWithCode1 :
    (∃ s : State, s.busy = false ∧ s.inReset = false ∧
      s.turns = .host (.regWrite 0x10#8 0x00000401#32 0xF#4) :: .engine :: []) ∧
    (0xFF#32).toNat % 2 ^ 8 ≥ 4 ∧ (0x00000300#32).toNat % 2 ^ 8 = 0 ∧ (0x00000401#32).toNat / 2 ^ 10 ≠ 0 ∧
    ((0x00000102#32).toNat % 2 ^ 8 ≠ 1 ∧ (0x00000102#32).toNat / 2 ^ 8 % 4 ≠ 0) :=
  ⟨⟨scheduled clean [wr .cmd 0x401#32, .engine], by decide, by decide, by decide⟩, by decide⟩

/-- A schedule without a reset, and one with. -/
theorem test_witness_CompletionAlwaysComes :
    (scheduled (running clean) [wr .cmd 1#32, .engine]).busy = true ∧
    Turn.assertReset ∉ (scheduled (running clean) [wr .cmd 1#32, .engine]).turns ∧
    (scheduled (running clean) [.assertReset]).busy = true := by decide

/-- Both sides of each bound of R76, and both kernel sizes at the edge. -/
theorem test_witness_ConfigureStoresOrRejects :
    (2 < 3 ∨ ¬(0x3DCCCCCD ≤ (0x3DCCCCCD#32).toNat ∧ (0x3DCCCCCD#32).toNat ≤ 0x42C80000)) ∧
    ¬(0x3DCCCCCD ≤ (0x3DCCCCCC#32).toNat ∧ (0x3DCCCCCC#32).toNat ≤ 0x42C80000) ∧
    ¬(0x3DCCCCCD ≤ (0x42C80001#32).toNat ∧ (0x42C80001#32).toNat ≤ 0x42C80000) ∧
    (2 ≤ 2 ∧ 0x3DCCCCCD ≤ (0x42C80000#32).toNat ∧ (0x42C80000#32).toNat ≤ 0x42C80000) ∧
    0x00000301#32 &&& 0xFFFFFCFF#32 = 0x00000001#32 := by decide

/-- A change (sigma 2.0) and a change back to 1.5, from the clean state. -/
theorem test_witness_ConfigureNeverClearsDirty : ∃ t u,
    exec (.configure 1) (latched clean 0x101#32 0x40000000#32 0#32 0#32) = .next t ∧
    t.result = 0x00#8 ∧ t.sigma ≠ clean.sigma ∧ t.dirty = true ∧
    exec (.configure 1) { t with latch := ⟨0x101#32, 0x3FC00000#32, 0#32, 0#32⟩ } = .next u ∧
    u.ksize = clean.ksize ∧ u.sigma = clean.sigma :=
  ⟨_, _, rfl, by decide, by decide, by decide, rfl, by decide, by decide⟩

theorem test_witness_SetGeometryStoresOrRejects :
    (latched clean 2#32 0#32 1#32 0#32).latch.arg0.toNat = 0 ∧
    (0xFFFF < (0x10000#32).toNat ∧ (0x10000#32).toNat ≠ 0 ∧ (1#32).toNat ≠ 0) ∧
    (16#32).toNat ≠ 3 * (4#32).toNat ∧
    (1 ≤ (0xFFFF#32).toNat ∧ (0xFFFF#32).toNat ≤ 0xFFFF ∧ (196605#32).toNat = 3 * (0xFFFF#32).toNat) ∧
    0x00000002#32 &&& 0xFFFFFFFF#32 = 0x00000002#32 := by decide

theorem test_witness_ParameterCommandsFrame : ∃ t u,
    exec (.configure 3) (latched clean 0x301#32 0#32 0#32 0#32) = .next t ∧ t.result ≠ 0x00#8 ∧
    exec .setGeometry (latched clean 2#32 4#32 4#32 16#32) = .next u ∧ u.result ≠ 0x00#8 :=
  ⟨_, _, rfl, by decide, rfl, by decide⟩

/-- With the host's duties over the buffer kept (PF1), and broken. -/
theorem test_witness_ProcessFrameWithKernelSize0IsIdentity : State.reset.ksize = 0#2 ∧
    State.reset.BorrowKept ∧ disturbedIdentity.ksize = 0#2 ∧ ¬disturbedIdentity.BorrowKept :=
  ⟨by decide, ⟨rfl, plain_of_no_devices rfl rfl⟩, by decide, fun h => absurd h.1 (by decide)⟩

/-- PF2, PF3, PF7 and PF6. -/
theorem test_witness_ProcessFrameChecksGeometryAndBuffer : clean.ksize ≠ 0#2 ∧ clean.geomValid = false ∧
    (running clean).geomValid = true ∧
    (latched (withFrame clean 4 4) 3#32 0#32 47#32 0#32).latch.arg1.toNat
      < (withFrame clean 4 4).stride.toNat * (withFrame clean 4 4).height.toNat ∧
    2 ^ 32 < (latched (withFrame clean 4 4) 3#32 0xFFFFFFD1#32 48#32 0#32).latch.arg0.toNat
      + (withFrame clean 4 4).stride.toNat * (withFrame clean 4 4).height.toNat ∧
    (latched (withFrame clean 4 4) 3#32 0xFFFFFFD0#32 48#32 0#32).FrameAccepted ∧
    (withFrame clean 4 4).GeometryOk ∧ (withFrame clean 4 4).InFrame ⟨3, 3, 2⟩ := by
  unfold State.FrameAccepted State.GeometryOk State.InFrame
  decide

theorem running_accepted : (running clean).FrameAccepted ∧ (running clean).GeometryOk ∧
    (running clean).mem.wf = true ∧ (running clean).Interior ⟨0, 0, 2⟩ ∧
    (running clean).kernelSide = 3 := by
  unfold State.FrameAccepted State.GeometryOk State.Interior
  decide

theorem test_witness_ProcessFrameBlursTheInterior : ∃ s : State, s.mem.wf = true ∧ s.GeometryOk ∧
    s.FrameAccepted ∧ s.DutiesKept ∧ s.busError = false ∧ s.Interior ⟨0, 0, 2⟩ :=
  ⟨running clean, running_accepted.2.2.1, running_accepted.2.1, running_accepted.1,
    ⟨⟨rfl, plain_of_no_devices rfl rfl⟩, rfl⟩, by decide, running_accepted.2.2.2.1⟩

theorem test_witness_InPlaceSweepGivesTheSameFrame : ∃ s : State, s.mem.wf = true ∧ s.GeometryOk ∧
    s.interior ≠ [] :=
  ⟨running clean, running_accepted.2.2.1, running_accepted.2.1, by decide⟩

theorem test_witness_BusErrorLeavesInteriorUnspecified : ∃ s : State, s.mem.wf = true ∧ s.GeometryOk ∧
    s.FrameAccepted ∧ s.FrameIsPlain ∧ s.busError = true ∧ s.Interior ⟨0, 0, 2⟩ :=
  ⟨running (erring clean), by decide, by unfold State.GeometryOk; decide,
    by unfold State.FrameAccepted; decide, plain_of_no_devices rfl rfl, by decide,
    by unfold State.Interior; decide⟩

/-- H-4 broken over an accepted frame; H-2 broken over an identity frame and, at a base where the frame passes the
top of memory, over a rejected one; H-3 broken by a device and by the register window. -/
theorem test_witness_BrokenDutyLeavesFrameUnspecified :
    (∃ s : State, s.mem.wf = true ∧ s.GeometryOk ∧ s.FrameAccepted ∧ s.env.hostOrder = false ∧
      s.Unsettled 0x82 ∧ ¬s.Unsettled 0x83) ∧
    (∃ s : State, s.mem.wf = true ∧ s.GeometryOk ∧ ¬s.BorrowKept ∧ s.ksize = 0#2 ∧ s.Unsettled 0x80) ∧
    (∃ s : State, s.mem.wf = true ∧ s.GeometryOk ∧ ¬s.BorrowKept ∧ ¬s.FrameAccepted ∧ s.ksize = 1#2) ∧
    (∃ s : State, s.mem.wf = true ∧ s.GeometryOk ∧ ¬s.BorrowKept ∧ ¬s.FrameIsPlain ∧ s.Unsettled 0xAF) ∧
    ∃ s : State, ¬s.FrameIsPlain ∧ s.Unsettled 0x80 := by
  have plain : (running clean).FrameIsPlain := plain_of_no_devices rfl rfl
  have hs : (running clean).stride.toNat = 12 := by decide
  have hb : (running clean).baseOperand = 0x80 := by decide
  have window : ¬(running (underWindow clean)).FrameIsPlain := fun h => absurd (h 0xAF (by decide)) (by decide)
  have device : ¬(running (onDevice clean)).FrameIsPlain := fun h => absurd (h 0x80 (by decide)) (by decide)
  refine ⟨⟨{ running clean with env := { clean.env with hostOrder := false } }, by decide,
      running_accepted.2.1, running_accepted.1, rfl,
      ⟨by decide, .inl ⟨plain, ⟨0, 0, 2⟩, running_accepted.2.2.2.1, by decide⟩⟩, ?_⟩,
    ⟨disturbedIdentity, by decide, running_accepted.2.1, fun h => absurd h.1 (by decide), by decide,
      by decide, .inl ⟨plain, ⟨0, 0, 0⟩, by unfold State.Interior; decide, by decide⟩⟩,
    ⟨{ latched (withFrame clean 4 4) 3#32 0xFFFFFFD1#32 48#32 0#32 with disturbed := true }, by decide,
      running_accepted.2.1, fun h => absurd h.1 (by decide), fun h => absurd h.2.2.2 (by decide), by decide⟩,
    ⟨running (underWindow clean), by decide, running_accepted.2.1, fun h => window h.2, window,
      by decide, .inr ⟨window, by decide⟩⟩,
    ⟨running (onDevice clean), device, by decide, .inr ⟨device, by decide⟩⟩⟩
  rintro ⟨-, ⟨-, p, hp, h⟩ | ⟨h, -⟩⟩
  · obtain ⟨h1, h2, h3⟩ := hp
    change (running clean).address p = 0x83 at h
    change p.y + (running clean).kernelSide < 4 at h1
    change p.x + (running clean).kernelSide < 4 at h2
    rw [running_accepted.2.2.2.2] at h1 h2
    simp only [State.address, hs, hb] at h
    omega
  · exact h plain

/-- A rejected frame and an accepted one. -/
theorem test_witness_ProcessFrameFrame :
    (∃ s t : State, s.mem.wf = true ∧ s.GeometryOk ∧ exec .processFrame s = .next t ∧ ¬s.FrameAccepted) ∧
    ∃ s t : State, s.mem.wf = true ∧ s.GeometryOk ∧ exec .processFrame s = .next t ∧ s.FrameAccepted ∧
      s.FrameIsPlain ∧ s.inFrameRegion 0x7F = false :=
  ⟨⟨clean, clean.finish .missingGeometry, by decide, by unfold State.GeometryOk; decide, rfl,
      fun h => absurd h.2.1 (by decide)⟩,
    ⟨running clean, (running clean).ensureKernel.convolve, running_accepted.2.2.1, running_accepted.2.1, rfl,
      running_accepted.1, plain_of_no_devices rfl rfl, by decide⟩⟩

/-- The last rows and columns start at 1 in a 4 × 4 frame. -/
theorem test_witness_LastRowsAndColumnsPassThrough : ∃ s t : State, s.mem.wf = true ∧ s.GeometryOk ∧
    s.FrameIsPlain ∧ exec .processFrame s = .next t ∧ s.InFrame ⟨0, 1, 0⟩ ∧
    s.height.toNat - s.kernelSide ≤ 1 ∧ s.InFrame ⟨1, 0, 0⟩ ∧ s.width.toNat - s.kernelSide ≤ 1 :=
  ⟨running clean, (running clean).ensureKernel.convolve, running_accepted.2.2.1, running_accepted.2.1,
    plain_of_no_devices rfl rfl, rfl, by unfold State.InFrame; decide, by decide,
    by unfold State.InFrame; decide, by decide⟩

/-- PF11: the height is the kernel side. -/
theorem test_witness_EmptyInteriorWritesNothing : ∃ s : State, s.FrameAccepted ∧ s.FrameIsPlain ∧
    s.height.toNat ≤ 2 * s.ksize.toNat + 1 ∧ ¬s.width.toNat ≤ 2 * s.ksize.toNat + 1 :=
  ⟨latched (withFrame clean 4 3) 3#32 0#32 36#32 0#32, by unfold State.FrameAccepted; decide,
    plain_of_no_devices rfl rfl, by decide, by decide⟩

theorem test_witness_RecomputeFollowsTheFormula : clean.ksize = 1#2 ∧
    (running stale).FrameAccepted ∧ (running stale).dirty = true ∧ (running clean).dirty = false := by
  unfold State.FrameAccepted
  decide

/-- Also of `KernelWeightsSumToOne`: both ends of the range of sigma. -/
theorem test_witness_KernelIsFiniteSymmetricAndPeaked : sigmaOk 0x3DCCCCCD#32 = true ∧
    sigmaOk 0x42C80000#32 = true ∧ (0 < 2 * (1#2).toNat + 1 ∧ 4 < 2 * (2#2).toNat + 1) := by decide

theorem test_witness_FastPathIsTheGenericSum : clean.ksize = 1#2 := by decide

theorem test_witness_AccumulatorIsTheRowMajorSum : clean.ksize = 1#2 ∧
    (latched clean 0x201#32 0x3FC00000#32 0#32 0#32).afterCommand.ksize = 2#2 := by decide

/-- Two memories that differ outside the footprint alone: pixel (3, 0) of the 4 × 4 frame. -/
theorem test_witness_OutputDependsOnlyOnItsFootprint : ∃ (s : State) (m m' : Memory), m ≠ m' ∧
    ∀ i j, i < s.kernelSide → j < s.kernelSide →
      m.read (s.address ⟨0 + j, 0 + i, 0⟩) = m'.read (s.address ⟨0 + j, 0 + i, 0⟩) := by
  refine ⟨running clean, [], [(0x89, 7#8)], by decide, fun i j hi hj => ?_⟩
  have h3 := running_accepted.2.2.2.2
  rw [h3] at hi hj
  have : ∀ i j : Fin 3, Memory.read [] ((running clean).address ⟨0 + j, 0 + i, 0⟩) =
      Memory.read [(0x89, 7#8)] ((running clean).address ⟨0 + j, 0 + i, 0⟩) := by decide
  exact this ⟨i, hi⟩ ⟨j, hj⟩

/-- Two frames that differ at pixel (0, 0) alone, and an output that differs (V1 and V16). -/
theorem test_witness_PixelInfluencesOnlyItsUpperLeftBlock : ∃ (s : State) (m m' : Memory),
    (∀ q, s.InFrame q → ¬(q.x = 0 ∧ q.y = 0) → m.read (s.address q) = m'.read (s.address q)) ∧
    s.Interior ⟨0, 0, 0⟩ ∧ s.out m ⟨0, 0, 0⟩ ≠ s.out m' ⟨0, 0, 0⟩ := by
  refine ⟨running clean, [], [(0x80, 255#8)], fun q hq hn => ?_, by unfold State.Interior; decide,
    by decide +kernel⟩
  have : (running clean).address q ≠ 0x80 := by
    intro h
    have hs : (running clean).stride.toNat = 12 := by decide
    have hb : (running clean).baseOperand = 0x80 := by decide
    simp only [State.address, hs, hb] at h
    omega
  simp [Memory.read, this]

theorem test_witness_UniformFootprintGivesTheRoundTrip : ∃ s : State, s.ksize = 1#2 ∧
    sigmaOk s.sigma = true ∧ s.kernel = kernelFor s.ksize s.sigma ∧
    ∀ t ∈ taps s.kernelSide, Memory.read [] (s.address (Sample.tap ⟨0, 0, 0⟩ t)) = 0#8 :=
  ⟨running clean, by decide, by decide, test_kernel_1.symm, fun _ _ => rfl⟩

/-- Of the three statements about the tables: the ends of their index ranges. -/
theorem test_witness_table_ranges : 0 < 255 ∧ 254 < 255 ∧ 255 < 256 ∧ 4094 < 4095 ∧ 4095 < 4096 := by decide

/-- A tie: 5 at two bits of precision lies halfway between 4 and 6, and the even significand is 4's. -/
theorem test_witness_RoundsToNearestTiesToEven : roundUnits 2 5 1 = 4 ∧ Representable 2 6 ∧ 6 ≠ roundUnits 2 5 1 ∧
    ((roundUnits 2 5 1 * 1 : Int) - 5).natAbs = ((6 * 1 : Int) - 5).natAbs :=
  ⟨by decide, ⟨3, 1, by decide, by decide⟩, by decide, by decide⟩

/-- A divisor that is not 0; a tie at 2^24 + 1, that 2^24 and 2^24 + 2 are as near to; an overflow. -/
theorem test_witness_OperationsRoundTheExactResult : (3 : Nat) ≠ 0 ∧
    (Fp.finite false 16777216 : Fp .binary32).add (.finite false 1) = .finite false 16777216 ∧
    Representable Format.binary32.precision (16777218 : Int).natAbs ∧
    (Fp.finite true (2 ^ 149) : Fp .binary32).mul (.finite false 3) = .finite true 3 ∧
    (Fp.finite false 1 : Fp .binary32).div (.finite true (2 ^ 149)) = .finite true 1 ∧
    (Fp.finite true (2 ^ 276) : Fp .binary32).add (.finite true (2 ^ 276)) = .inf true :=
  ⟨by decide, by decide +kernel, ⟨8388609, 1, by decide, by decide⟩, by decide +kernel, by decide +kernel,
    by decide +kernel⟩

/-- Zero, where the bracket is a point, and -1024. -/
theorem test_witness_ExponentialIsCorrectlyRounded :
    roundUnits 53 (expBracket 0).lo (2 ^ (expBits - 1074)) =
      roundUnits 53 (expBracket 0).hi (2 ^ (expBits - 1074)) ∧ (2 ^ 1084 : Nat) ≤ 2 ^ 1084 ∧
    Representable 53 1 :=
  ⟨by decide +kernel, le_refl _, ⟨1, 0, by decide, by decide⟩⟩

theorem test_witness_AcceptanceLatchesWordAndArguments :
    (scheduled clean [wr .cmd 1#32]).inReset = false ∧ (scheduled clean [wr .cmd 1#32]).busy = false ∧
    (scheduled clean [wr .cmd 1#32]).turns = [.host (.regWrite 0x10#8 1#32 0xF#4)] := by decide

theorem test_witness_CommandWriteWhileBusyIsDropped :
    (scheduled (running clean) [wr .cmd 1#32]).inReset = false ∧
    (scheduled (running clean) [wr .cmd 1#32]).busy = true ∧
    (scheduled (running clean) [wr .cmd 1#32]).turns = [.host (.regWrite 0x10#8 1#32 0xF#4)] := by decide

/-- A busy block and an idle one. -/
theorem test_witness_RunningCommandIgnoresLaterArguments : (running clean).inReset = false ∧
    (running clean).busy = true ∧ clean.inReset = false ∧ clean.busy = false ∧
    (scheduled clean [wr .arg1 1#32]).turns = [.host (.regWrite 0x18#8 1#32 0xF#4)] ∧
    [wr .arg0 1#32, wr .arg1 1#32, wr .arg2 1#32, wr .ctrl 1#32, wr .events 1#32] =
      [0x14#8, 0x18#8, 0x1C#8, 0x04#8, 0x0C#8].map (fun off => Turn.host (.regWrite off 1#32 0xF#4)) ∧
    exec .processFrame (running State.reset) = .next ((running State.reset).finish .ok) :=
  ⟨by decide, by decide, by decide, by decide, by decide, by decide, rfl⟩

theorem test_witness_IllegalTransactionHasNoEffect : (0x01#8).toNat % 4 ≠ 0 ∧ 0x7#4 ≠ 0xF#4 ∧
    (scheduled clean [.host (.regRead 0x01#8 0xF#4)]).turns = [.host (.regRead 0x01#8 0xF#4)] ∧
    (scheduled clean [.host (.regWrite 0x04#8 1#32 0x7#4)]).turns = [.host (.regWrite 0x04#8 1#32 0x7#4)] := by
  decide

/-- Offsets at the edges of the clauses: 0x3C, 0xA4, 0xFC, 0x10; 0x00, 0x08, 0x20. -/
theorem test_witness_ReservedAndReadOnlyOffsetsIgnoreWrites : (0xA4 ≤ (0xA4#8).toNat ∧ (0xA4#8).toNat % 4 = 0 ∧ 0xA4 ≤ (0xFC#8).toNat ∧ (0xFC#8).toNat % 4 = 0) ∧
    ((0x3C#8).toNat = 0x3C ∧ (0x3C#8).toNat % 4 = 0) ∧ ((0x10#8).toNat = 0x10 ∧ (0x10#8).toNat % 4 = 0) ∧
    ((0x00#8).toNat = 0x00 ∧ (0x08#8).toNat = 0x08 ∧ 0x20 ≤ (0x20#8).toNat) ∧
    (scheduled clean [.host (.regRead 0xA4#8 0xF#4)]).turns = [.host (.regRead 0xA4#8 0xF#4)] ∧
    (scheduled clean [.host (.regWrite 0x20#8 2#32 0xF#4)]).turns = [.host (.regWrite 0x20#8 2#32 0xF#4)] := by
  decide

/-- The last named register. -/
theorem test_witness_RegisterReadsHaveNoSideEffect :
    (scheduled clean [.host (.regRead 0xA0#8 0xF#4)]).turns = [.host (.regRead 0xA0#8 0xF#4)] ∧
    clean.busy = false ∧ (0xA0#8).toNat % 4 = 0 ∧
    Reg.ofOffset 0xA0#8 = some (.kernel 24) := by decide

/-- The offsets at the edges of the map's clauses: the last named register, and the first above it. -/
theorem test_witness_IdleReadsFollowTheRegisterMap : clean.busy = false ∧
    (∀ off ∈ [0x00#8, 0x08#8, 0x3C#8, 0x40#8, 0xA0#8, 0xA4#8, 0xFC#8], off.toNat % 4 = 0 ∧
      (scheduled clean [.host (.regRead off 0xF#4)]).turns = [.host (.regRead off 0xF#4)]) ∧
    (0xA0#8).toNat = 0x40 + 4 * 24 ∧ 0xA4 ≤ (0xA4#8).toNat := by decide

theorem test_witness_EventsClearByWritingOnes : clean.inReset = false ∧
    (scheduled clean hostAck).turns = [.host (.regWrite 0x0C#8 3#32 0xF#4)] := by decide

/-- A register of each kind: host, state, and `STATUS`. -/
theorem test_witness_BusyReadsAreBeforeOrAfter :
    (running clean).busy = true ∧ Reg.ofOffset 0x14#8 = some .arg0 ∧ Reg.ofOffset 0x40#8 = some (.kernel 0) ∧
    Reg.ofOffset 0x08#8 = some .status ∧ Reg.kernel 0 ∉ [Reg.id, .ctrl, .status, .events, .cmd, .arg0, .arg1, .arg2] ∧
    (scheduled (running clean) [rd .status]).turns = [.host (.regRead 0x08#8 0xF#4)] := by decide

/-- The first byte of the region, interior, and its last, not interior. -/
theorem test_witness_BorrowedFrameIsUnspecifiedToTheHost : ∃ (s t : State), s.mem.wf = true ∧ s.GeometryOk ∧
    s.busy = true ∧ decode s.latch.cmd = .ok .processFrame ∧ s.FrameAccepted ∧ s.FrameIsPlain ∧
    s.inFrameRegion (0x80#32).toNat = true ∧ s.inFrameRegion (0xAF#32).toNat = true ∧
    exec .processFrame (s.hostWrite 0xAF#32 7#8) = .next t ∧ s.Interior ⟨0, 0, 2⟩ ∧
    (∀ p, s.Interior p → s.address p ≠ (0xAF#32).toNat) ∧
    (scheduled s [.host (.memRead 0x80#32)]).turns = [.host (.memRead 0x80#32)] := by
  refine ⟨running clean, ((running clean).hostWrite 0xAF#32 7#8).ensureKernel.convolve,
    running_accepted.2.2.1, running_accepted.2.1, rfl, rfl, running_accepted.1, plain_of_no_devices rfl rfl,
    by decide, by decide, rfl, running_accepted.2.2.2.1, fun p hp h => ?_, rfl⟩
  have hs : (running clean).stride.toNat = 12 := by decide
  have hb : (running clean).baseOperand = 0x80 := by decide
  have hh : (running clean).height.toNat = 4 := by decide
  have hw : (running clean).width.toNat = 4 := by decide
  have hf : (0xAF#32).toNat = 0xAF := by decide
  obtain ⟨h1, h2, h3⟩ := hp
  simp only [running_accepted.2.2.2.2, hh, hw] at h1 h2
  simp only [State.address, hs, hb, hf] at h
  omega

/-- The same of a frame that is the identity (kernelsize 0): its interior, side 1, ends at byte 0xA6. -/
theorem test_witness_BorrowedFrameIsUnspecified_identity : ∃ (s t : State), s.mem.wf = true ∧ s.GeometryOk ∧
    s.busy = true ∧ decode s.latch.cmd = .ok .processFrame ∧ s.FrameIsPlain ∧
    s.inFrameRegion (0xAF#32).toNat = true ∧ exec .processFrame (s.hostWrite 0xAF#32 7#8) = .next t ∧
    s.ksize = 0#2 ∧ s.Interior ⟨2, 2, 2⟩ ∧ s.address ⟨2, 2, 2⟩ < 2 ^ 32 :=
  ⟨disturbedIdentity, _, by decide, running_accepted.2.1, rfl, rfl,
    plain_of_no_devices rfl rfl, by decide, rfl, by decide, by unfold State.Interior; decide,
    by decide⟩

/-- A byte outside the region of a running frame, and one inside it. -/
theorem test_witness_HostReadsAndStoresPlainBytes : (running clean).mem.wf = true ∧
    (running clean).isDevice (0xB0#32).toNat = false ∧
    (running clean).inFrameRegion (0xB0#32).toNat = false ∧ (running clean).inFrameRegion (0xAF#32).toNat = true ∧
    (scheduled (running clean) [.host (.memRead 0xB0#32)]).turns = [.host (.memRead 0xB0#32)] ∧
    (scheduled (running clean) [.host (.memWrite 0xAF#32 7#8)]).turns = [.host (.memWrite 0xAF#32 7#8)] := by
  decide

/-- Legal states with a current kernel: a frame runs, or the host is about to write a byte. -/
theorem legal_of_running {s : State} (turns : List Turn) (h : s = scheduled (running clean) turns) :
    LegalState s where
  ksize_legal := by subst h; exact (by decide : (1#2 : BitVec 2) ≠ 3#2)
  kernelKsize_legal := by subst h; exact (by decide : (1#2 : BitVec 2) ≠ 3#2)
  sigma_legal := by
    subst h
    exact (by decide : 0x3DCCCCCD ≤ (0x3FC00000#32).toNat ∧ (0x3FC00000#32).toNat ≤ 0x42C80000)
  clean_current := by
    subst h
    intro _
    refine ⟨rfl, rfl, ?_⟩
    change kernel1 = kernelFor 1#2 0x3FC00000#32
    exact test_kernel_1.symm
  invalid_empty := by subst h; intro h; cases h
  valid_ksize := by subst h; exact fun _ => (by decide : (1#2 : BitVec 2) ≠ 0#2)
  geometry_legal := by
    subst h
    exact fun _ => (by decide : 1 ≤ (4#16).toNat ∧ 1 ≤ (4#16).toNat ∧ (12#32).toNat = 3 * (4#16).toNat)
  geometry_unset := by subst h; intro h; cases h
  result_produced := by subst h; exact (by decide : (0x00#8).toNat ≤ 6)
  memory_canonical := by subst h; rfl
  memory_inRange := by subst h; rfl
  reset_held := by subst h; intro h; cases h

theorem test_running_is_legal : LegalState (running clean) ∧
    LegalState (scheduled (running clean) [.host (.memWrite 5#32 7#8)]) :=
  ⟨legal_of_running [] rfl, legal_of_running _ rfl⟩

/-- The clean state's reset, held over one more turn, a read. -/
theorem test_witness_ResetRestoresEveryRegister : ∃ t : State,
    step (scheduled clean [.assertReset, rd .status, .releaseReset]) = .next t ∧ t.inReset = true ∧
    LegalState t ∧ (∃ u, step t = .next u) ∧ t.turns = .host (.regRead 0x08#8 0xF#4) :: [.releaseReset] ∧
    Reg.ofOffset 0x08#8 = some .status ∧ (scheduled clean [.releaseReset]).turns = [.releaseReset] :=
  ⟨_, rfl, rfl, by constructor <;> decide, ⟨_, rfl⟩, rfl, rfl, rfl⟩

/-- A frame past its checks, and an identity frame whose region the host wrote. -/
theorem test_witness_ResetAbandonsTheRunningCommand :
    (∃ s : State, s.mem.wf = true ∧ s.GeometryOk ∧ s.FrameIsPlain ∧ s.turns = [.assertReset] ∧
      s.busy = true ∧ decode s.latch.cmd = .ok .processFrame ∧ s.FrameAccepted ∧ s.Interior ⟨0, 0, 2⟩ ∧
      s.address ⟨0, 0, 2⟩ < 2 ^ 32) ∧
    ∃ s : State, s.mem.wf = true ∧ s.GeometryOk ∧ s.FrameIsPlain ∧ s.turns = [.assertReset] ∧
      s.busy = true ∧ decode s.latch.cmd = .ok .processFrame ∧ ¬s.FrameAccepted ∧ s.disturbed = true ∧
      s.Interior ⟨2, 2, 2⟩ :=
  ⟨⟨scheduled (running clean) [.assertReset], running_accepted.2.2.1, running_accepted.2.1,
      plain_of_no_devices rfl rfl, rfl, rfl, rfl, running_accepted.1,
      running_accepted.2.2.2.1, by decide⟩,
    ⟨scheduled disturbedIdentity [.assertReset], by decide, running_accepted.2.1,
      plain_of_no_devices rfl rfl, rfl, rfl, rfl, fun h => absurd h.1 (by decide), by decide,
      by unfold State.Interior; decide⟩⟩

theorem test_witness_EveryStepKeepsTheStateLegal :
    LegalState (running clean) ∧ ∃ t, step (running clean) = .next t :=
  ⟨test_running_is_legal.1, ⟨_, rfl⟩⟩

/-- One step for each way a flag changes: acceptance, a change of parameter, a completed frame, a geometry, an
acknowledgement, an overrun, a reset. -/
theorem test_witness_FlagsChangeOnlyAsListed :
    (∃ t, step (scheduled clean [wr .cmd 1#32]) = .next t ∧ clean.busy = false ∧ t.busy = true) ∧
    (∃ t, step (latched clean 0x201#32 0x3FC00000#32 0#32 0#32) = .next t ∧ clean.dirty = false ∧
      t.dirty = true ∧ t.done = true ∧ t.busy = false) ∧
    (∃ t, step (running stale) = .next t ∧ stale.dirty = true ∧ stale.kernelValid = false ∧ t.dirty = false ∧
      t.kernelValid = true) ∧
    (∃ t, step (latched clean 2#32 4#32 4#32 12#32) = .next t ∧ clean.geomValid = false ∧ t.geomValid = true) ∧
    (∃ t, step (scheduled { clean with done := true, overrun := true } hostAck) = .next t ∧ t.done = false ∧
      t.overrun = false) ∧
    (∃ t, step (scheduled (running clean) [wr .cmd 1#32]) = .next t ∧ (running clean).overrun = false ∧
      t.overrun = true) ∧
    ∃ t, step (scheduled (withFrame clean 4 4) [.assertReset]) = .next t ∧ t.dirty = true ∧
      t.kernelValid = false ∧ t.geomValid = false :=
  ⟨⟨_, rfl, by decide, by decide⟩, ⟨_, rfl, by decide, by decide, by decide, by decide⟩,
    ⟨_, rfl, by decide, by decide, rfl, rfl⟩, ⟨_, rfl, by decide, by decide⟩,
    ⟨_, rfl, by decide, by decide⟩, ⟨_, rfl, by decide, by decide⟩,
    ⟨_, rfl, by decide, by decide, by decide⟩⟩

/-- One step for each register that changes, and no reset. -/
theorem test_witness_RegistersChangeOnlyByTheirWriters :
    (∃ t, step (scheduled clean [wr .ctrl 1#32]) = .next t ∧ ¬(scheduled clean [wr .ctrl 1#32]).ResetMoves ∧
      t.irqEn ≠ clean.irqEn) ∧
    (∃ t, step (scheduled clean [wr .arg1 1#32]) = .next t ∧ t.arg1 ≠ clean.arg1) ∧
    (∃ t, step (latched clean 0x101#32 0x40000000#32 0#32 0#32) = .next t ∧ t.sigma ≠ clean.sigma) ∧
    (∃ t, step (latched clean 2#32 4#32 4#32 12#32) = .next t ∧ t.width ≠ clean.width) ∧
    (∃ t, step (running stale) = .next t ∧ t.recomputeCount ≠ stale.recomputeCount) ∧
    (∃ t, step (latched clean 4#32 0#32 0#32 0#32) = .next t ∧ t.result ≠ clean.result) ∧
    ∃ t, step (scheduled clean [wr .cmd 1#32]) = .next t ∧ t.latch ≠ clean.latch :=
  ⟨⟨_, rfl, fun ⟨_, h⟩ => by simp [scheduled, wr] at h, by decide⟩, ⟨_, rfl, by decide⟩, ⟨_, rfl, by decide⟩,
    ⟨_, rfl, by decide⟩, ⟨_, rfl, by decide⟩, ⟨_, rfl, by decide⟩, ⟨_, rfl, by decide⟩⟩

/-- A host write that changes a byte, and a frame that changes one. -/
theorem test_witness_MemoryChangesOnlyByHostOrFrame :
    (∃ s t, LegalState s ∧ step s = .next t ∧ t.mem.read 5 ≠ s.mem.read 5) ∧
    ∃ s t, LegalState s ∧ step s = .next t ∧ t.mem.read 0x80 ≠ s.mem.read 0x80 :=
  ⟨⟨_, _, test_running_is_legal.2, rfl, by decide⟩, ⟨_, _, test_running_is_legal.1, rfl, by decide +kernel⟩⟩

end Sys2Proof.Tests
end

section
/-! PROOF. The rounding of one operation (00_scope.md R11): `roundUnits` picks the nearer end of the cell
`[q·2^e, (q+1)·2^e]` of representable values around `num / den`, ties to the even significand. -/

namespace Sys2Proof.Machine

/-! ### Representable magnitudes -/

theorem representable_zero (p : Nat) : Representable p 0 := ⟨0, 0, by positivity, by simp⟩

theorem representable_two_pow {p : Nat} (hp : 1 ≤ p) (k : Nat) : Representable p (2 ^ k) :=
  ⟨1, k, Nat.one_lt_two_pow (by omega), by simp⟩

/-- A significand of at most `2^p` is representable: `2^p` itself is `1` with a larger exponent. -/
theorem representable_mul_two_pow {p q : Nat} (hp : 1 ≤ p) (hq : q ≤ 2 ^ p) (e : Nat) :
    Representable p (q * 2 ^ e) := by
  rcases Nat.lt_or_eq_of_le hq with h | rfl
  · exact ⟨q, e, h, rfl⟩
  · rw [← pow_add]
    exact representable_two_pow hp _

/-- The exponent of a cell is 0, or its significand has all `p` bits. -/
def FullSignificand (p e q : Nat) : Prop := e = 0 ∨ 2 ^ (p - 1) ≤ q

theorem FullSignificand.mono {p e q q' : Nat} (h : FullSignificand p e q) (hq : q ≤ q') :
    FullSignificand p e q' := h.imp_right (le_trans · hq)

/-- No representable value lies strictly between neighbours: with fewer than `p` bits below `2^e` to spare, a
value under the cell's exponent is under the cell. -/
theorem Representable.not_between {p e q v : Nat} (hp : 1 ≤ p) (hq : FullSignificand p e q)
    (hv : Representable p v) : v ≤ q * 2 ^ e ∨ (q + 1) * 2 ^ e ≤ v := by
  obtain ⟨m, k, hm, rfl⟩ := hv
  by_cases hk : e ≤ k
  · obtain ⟨d, rfl⟩ := Nat.exists_eq_add_of_le hk
    have hmul : m * 2 ^ (e + d) = (m * 2 ^ d) * 2 ^ e := by ring
    rw [hmul]
    exact (Nat.lt_or_ge q (m * 2 ^ d)).symm.imp (Nat.mul_le_mul_right _) (Nat.mul_le_mul_right _)
  · have hfull : 2 ^ (p - 1) ≤ q := hq.resolve_left (by omega)
    left
    calc m * 2 ^ k ≤ 2 ^ p * 2 ^ (e - 1) :=
          Nat.mul_le_mul hm.le (Nat.pow_le_pow_right two_pos (by omega))
      _ = 2 ^ (p - 1) * 2 ^ e := by
          rw [← pow_add, ← pow_add]
          congr 1
          omega
      _ ≤ q * 2 ^ e := Nat.mul_le_mul_right _ hfull

/-! ### The cell around `num / den` -/

/-- The exponent of the spacing that `precision` bits have at `num / den`. -/
def spacingExponent (precision num den : Nat) : Nat := (num / den).log2 + 1 - precision

/-- The lower significand of the cell, the quotient of `roundUnits`. -/
def lowerSignificand (precision num den : Nat) : Nat :=
  num / (den * 2 ^ spacingExponent precision num den)

theorem lowerSignificand_lt {p num den : Nat} : lowerSignificand p num den < 2 ^ p := by
  unfold lowerSignificand spacingExponent
  rw [← Nat.div_div_eq_div_mul, Nat.div_lt_iff_lt_mul (by positivity), ← pow_add]
  calc num / den < 2 ^ ((num / den).log2 + 1) := Nat.lt_log2_self
    _ ≤ _ := Nat.pow_le_pow_right two_pos (by omega)

theorem lowerSignificand_full {p num den : Nat} (hp : 1 ≤ p) :
    FullSignificand p (spacingExponent p num den) (lowerSignificand p num den) := by
  unfold FullSignificand lowerSignificand
  by_cases he : spacingExponent p num den = 0
  · exact .inl he
  · right
    unfold spacingExponent at he ⊢
    have hn : num / den ≠ 0 := by
      intro h
      rw [h, Nat.log2_zero] at he
      omega
    rw [← Nat.div_div_eq_div_mul, Nat.le_div_iff_mul_le (by positivity), ← pow_add]
    calc 2 ^ (p - 1 + ((num / den).log2 + 1 - p)) = 2 ^ (num / den).log2 := by
          congr 1
          omega
      _ ≤ num / den := Nat.log2_self_le hn

/-- `num / den` lies in its cell. -/
theorem lowerSignificand_mul_le (p num den : Nat) :
    lowerSignificand p num den * 2 ^ spacingExponent p num den * den ≤ num := by
  rw [mul_assoc, mul_comm _ den]
  exact Nat.div_mul_le_self _ _

theorem lt_lowerSignificand_succ_mul (p num : Nat) {den : Nat} (hd : 1 ≤ den) :
    num < (lowerSignificand p num den + 1) * 2 ^ spacingExponent p num den * den := by
  rw [mul_assoc, mul_comm _ den, mul_comm]
  exact Nat.lt_mul_div_succ _ (by positivity)

/-- What `roundUnits` answers: the nearer end `q` of the cell, the other end being `o`, and of two ends as near
the one with the even significand. -/
theorem roundUnits_nearer_end (p num : Nat) {den : Nat} (hd : 1 ≤ den) : ∃ q o e, e = spacingExponent p num den ∧
    (q = lowerSignificand p num den ∧ o = q + 1 ∨ o = lowerSignificand p num den ∧ q = o + 1) ∧
    roundUnits p num den = q * 2 ^ e ∧
    (((q * 2 ^ e : Nat) * den : Int) - num).natAbs ≤ (((o * 2 ^ e : Nat) * den : Int) - num).natAbs ∧
    ((((q * 2 ^ e : Nat) * den : Int) - num).natAbs = (((o * 2 ^ e : Nat) * den : Int) - num).natAbs →
      q % 2 = 0) := by
  obtain ⟨e, he⟩ : ∃ e, e = spacingExponent p num den := ⟨_, rfl⟩
  obtain ⟨l, hl⟩ : ∃ l, l = lowerSignificand p num den := ⟨_, rfl⟩
  obtain ⟨rem, hrem⟩ : ∃ rem, rem = num % (den * 2 ^ e) := ⟨_, rfl⟩
  have hdef : roundUnits p num den =
      if den * 2 ^ e < 2 * rem ∨ (2 * rem = den * 2 ^ e ∧ l % 2 = 1) then (l + 1) * 2 ^ e
      else l * 2 ^ e := by
    subst he hl hrem
    rfl
  have hnum : (num : Int) = (l * 2 ^ e : Nat) * den + rem := by
    have hdiv : l * (den * 2 ^ e) + rem = num := by
      subst he hl hrem
      exact Nat.div_add_mod' num _
    rw [← hdiv]
    push_cast
    ring
  have hsucc : (((l + 1) * 2 ^ e : Nat) * den : Int) = (l * 2 ^ e : Nat) * den + (den * 2 ^ e : Nat) := by
    push_cast
    ring
  have hlt : rem < den * 2 ^ e := hrem ▸ Nat.mod_lt _ (by positivity)
  rw [hdef, ← hl]
  split_ifs with h
  · refine ⟨l + 1, l, e, he, .inr ⟨rfl, rfl⟩, rfl, ?_, ?_⟩ <;> rw [hsucc, hnum] <;> omega
  · refine ⟨l, l + 1, e, he, .inl ⟨rfl, rfl⟩, rfl, ?_, ?_⟩ <;> rw [hsucc, hnum] <;> omega

/-- A value outside a cell is no nearer to a point `num / den` of it than its nearer end `q`, and as near only
where both ends are. -/
theorem nearer_end_le {den num q o v : Nat} (hd : 1 ≤ den)
    (hcell : q * den ≤ num ∧ num ≤ o * den ∨ o * den ≤ num ∧ num ≤ q * den)
    (hnearer : ((q * den : Int) - num).natAbs ≤ ((o * den : Int) - num).natAbs)
    (hv : v ≤ q ∧ v ≤ o ∨ q ≤ v ∧ o ≤ v) :
    ((q * den : Int) - num).natAbs ≤ ((v * den : Int) - num).natAbs ∧
      (v ≠ q → ((q * den : Int) - num).natAbs = ((v * den : Int) - num).natAbs →
        ((q * den : Int) - num).natAbs = ((o * den : Int) - num).natAbs) := by
  have hv : v * den ≤ q * den ∧ v * den ≤ o * den ∨ q * den ≤ v * den ∧ o * den ≤ v * den := by
    simpa only [Nat.mul_le_mul_right_iff hd] using hv
  have hne : v ≠ q → v * den ≠ q * den := fun h heq => h (Nat.eq_of_mul_eq_mul_right hd heq)
  zify at hcell hv hne
  generalize (q * den : Int) = Q at *
  generalize (o * den : Int) = O at *
  generalize (v * den : Int) = V at *
  exact ⟨by omega, fun h htie => by have := hne (by exact_mod_cast h); omega⟩

/-- The spec of `roundUnits`: its answer has a significand `q` at the exponent of the spacing, no representable
value is nearer to `num / den`, and `q` is even where another is as near. -/
theorem roundUnits_spec {p num den : Nat} (hp : 1 ≤ p) (hd : 1 ≤ den) :
    ∃ q, roundUnits p num den = q * 2 ^ spacingExponent p num den ∧ q ≤ 2 ^ p ∧
      FullSignificand p (spacingExponent p num den) q ∧
      ∀ v, Representable p v →
        ((roundUnits p num den * den : Int) - num).natAbs ≤ ((v * den : Int) - num).natAbs ∧
          (v ≠ roundUnits p num den →
            ((roundUnits p num den * den : Int) - num).natAbs = ((v * den : Int) - num).natAbs →
            q % 2 = 0) := by
  obtain ⟨q, o, e, rfl, hends, hr, hnearer, heven⟩ := roundUnits_nearer_end p num hd
  have hlt := @lowerSignificand_lt p num den
  have hfull := @lowerSignificand_full p num den hp
  have hlow := lowerSignificand_mul_le p num den
  have hhigh := (lt_lowerSignificand_succ_mul p num hd).le
  rw [hr]
  refine ⟨q, rfl, by omega, hfull.mono (by omega), fun v hv => ?_⟩
  have houtside := hv.not_between hp hfull
  have hnear := nearer_end_le (v := v) hd ?_ hnearer ?_
  · exact ⟨hnear.1, fun hne htie => heven (hnear.2 hne htie)⟩
  · rcases hends with ⟨rfl, rfl⟩ | ⟨rfl, rfl⟩
    · exact .inl ⟨hlow, hhigh⟩
    · exact .inr ⟨hlow, hhigh⟩
  · have hle := Nat.mul_le_mul_right (2 ^ spacingExponent p num den)
      (Nat.le_succ (lowerSignificand p num den))
    rcases hends with ⟨rfl, rfl⟩ | ⟨rfl, rfl⟩
    · exact houtside.imp (fun h => ⟨h, h.trans hle⟩) (fun h => ⟨hle.trans h, h⟩)
    · exact houtside.imp (fun h => ⟨h.trans hle, h⟩) (fun h => ⟨h, hle.trans h⟩)

theorem representable_roundUnits {p num den : Nat} (hp : 1 ≤ p) (hd : 1 ≤ den) :
    Representable p (roundUnits p num den) := by
  obtain ⟨q, hr, hq, -, -⟩ := roundUnits_spec (num := num) hp hd
  rw [hr]
  exact representable_mul_two_pow hp hq _

theorem roundUnits_nearest {p num den v : Nat} (hp : 1 ≤ p) (hd : 1 ≤ den) (hv : Representable p v) :
    ((roundUnits p num den * den : Int) - num).natAbs ≤ ((v * den : Int) - num).natAbs := by
  obtain ⟨q, -, -, -, h⟩ := roundUnits_spec (num := num) hp hd
  exact (h v hv).1

/-- Rounding does not pass a representable bound. -/
theorem roundUnits_le {p num den v : Nat} (hp : 1 ≤ p) (hd : 1 ≤ den) (hv : Representable p v)
    (h : num ≤ v * den) : roundUnits p num den ≤ v := by
  have hnear := roundUnits_nearest (num := num) hp hd hv
  by_contra hlt
  have hmul : v * den < roundUnits p num den * den := Nat.mul_lt_mul_of_pos_right (by omega) hd
  have h1 : (num : Int) ≤ v * den := by exact_mod_cast h
  have h2 : (v : Int) * den < roundUnits p num den * den := by exact_mod_cast hmul
  omega

/-- Settles O33: `roundUnits_spec`, the even significand being read off the chosen end of the cell. -/
theorem roundsToNearestTiesToEven : Obligations.RoundsToNearestTiesToEven := by
  intro p num den hp hd r
  obtain ⟨q, hr, -, -, h⟩ := roundUnits_spec (num := num) hp hd
  refine ⟨representable_roundUnits hp hd, fun v hv => ⟨(h v hv).1, fun hne htie => ?_⟩⟩
  have hq : r / 2 ^ spacingExponent p num den = q := by
    rw [show r = q * 2 ^ spacingExponent p num den from hr, Nat.mul_div_cancel _ (by positivity)]
  exact hq ▸ (h v hv).2 hne htie

end Sys2Proof.Machine
end


section
/-! PROOF. The operations (00_scope.md R11): each is one `Fp.round` of the exact signed result, and that is the
exact result rounded once. -/

namespace Sys2Proof.Machine

/-! ### Signed units -/

@[simp] theorem signedUnits_false (n : Nat) : signedUnits false n = n := rfl

@[simp] theorem signedUnits_true (n : Nat) : signedUnits true n = -(n : Int) := rfl

/-- Like signs add their magnitudes. -/
theorem signedUnits_add_same (a : Bool) (u v : Nat) :
    signedUnits a u + signedUnits a v = signedUnits a (u + v) := by
  cases a
  · simp
  · simp only [signedUnits_true, Nat.cast_add]
    ring

/-- Unlike signs subtract them, the larger giving the sign. -/
theorem signedUnits_add_of_le {a b : Bool} {u v : Nat} (hab : a ≠ b) (h : u ≤ v) :
    signedUnits a u + signedUnits b v = signedUnits b (v - u) := by
  have hsub : ((v - u : Nat) : Int) = v - u := Int.ofNat_sub h
  cases b
  · obtain rfl : a = true := by simpa using hab
    simp only [signedUnits_true, signedUnits_false, hsub]
    ring
  · obtain rfl : a = false := by simpa using hab
    simp only [signedUnits_true, signedUnits_false, hsub]
    ring

/-! ### One rounding -/

/-- A significand that is full at the exponent `e` is the one its value has. -/
theorem log2_full_significand {p e q : Nat} (hp : 1 ≤ p) (hq : q < 2 ^ p) (hfull : FullSignificand p e q) :
    (q * 2 ^ e).log2 + 1 - p = e := by
  rcases Nat.eq_zero_or_pos q with rfl | hpos
  · obtain rfl : e = 0 := hfull.resolve_right (by simp)
    rw [Nat.zero_mul, Nat.log2_zero]
    omega
  · have hne : q * 2 ^ e ≠ 0 := by positivity
    have hlt : (q * 2 ^ e).log2 < p + e := by
      rw [Nat.log2_lt hne, pow_add]
      exact Nat.mul_lt_mul_of_pos_right hq (by positivity)
    rcases hfull with rfl | hlow
    · omega
    · have hge : p - 1 + e ≤ (q * 2 ^ e).log2 := by
        rw [Nat.le_log2 hne, pow_add]
        exact Nat.mul_le_mul_right _ hlow
      omega

/-- An even significand at the exponent of the spacing is the significand that the value has: where the rounding
carries to `2^p` the exponent is one more, and `2^(p-1)` is even too. -/
theorem even_significand {p e q : Nat} (hp : 2 ≤ p) (hq : q ≤ 2 ^ p) (hfull : FullSignificand p e q)
    (heven : q % 2 = 0) : q * 2 ^ e / 2 ^ ((q * 2 ^ e).log2 + 1 - p) % 2 = 0 := by
  rcases Nat.lt_or_eq_of_le hq with hlt | rfl
  · rw [log2_full_significand (by omega) hlt hfull, Nat.mul_div_cancel _ (by positivity)]
    exact heven
  · have hexp : (2 ^ p * 2 ^ e).log2 + 1 - p = e + 1 := by
      rw [← pow_add, Nat.log2_two_pow]
      omega
    have hcarry : 2 ^ p * 2 ^ e = 2 * 2 ^ (p - 2) * 2 ^ (e + 1) := by
      rw [← pow_succ', ← pow_add, ← pow_add]
      congr 1
      omega
    rw [hexp, hcarry, Nat.mul_div_cancel _ (by positivity), Nat.mul_mod_right]

/-- `roundUnits_spec` over signed values: a negative one is farther from `num / den` than 0 is. -/
theorem roundUnits_spec_int {p num den : Nat} (hp : 2 ≤ p) (hd : 1 ≤ den) {w : Int}
    (hw : Representable p w.natAbs) :
    ((roundUnits p num den * den : Int) - num).natAbs ≤ (w * den - num).natAbs ∧
      (w ≠ roundUnits p num den →
        ((roundUnits p num den * den : Int) - num).natAbs = (w * den - num).natAbs →
        roundUnits p num den / 2 ^ ((roundUnits p num den).log2 + 1 - p) % 2 = 0) := by
  obtain ⟨q, hr, hq, hfull, hspec⟩ := roundUnits_spec (num := num) (by omega : 1 ≤ p) hd
  rcases le_or_gt 0 w with hpos | hneg
  · lift w to Nat using hpos
    obtain ⟨hle, htie⟩ := hspec w hw
    refine ⟨hle, fun hne heq => ?_⟩
    rw [hr]
    exact even_significand hp hq hfull (htie (by exact_mod_cast hne) heq)
  · have hzero := (hspec 0 (representable_zero p)).1
    have hwd : w * den < 0 := mul_neg_of_neg_of_pos hneg (by exact_mod_cast hd)
    exact ⟨by omega, fun _ heq => by omega⟩

/-- A rounding up to `T` or more comes of a result past the middle between `T` and the representable `L` below
it. -/
theorem two_mul_le_of_le_roundUnits {p num den L G T : Nat} (hp : 1 ≤ p) (hd : 1 ≤ den)
    (hL : Representable p L) (hG : 1 ≤ G) (hgap : L + G = T)
    (h : T ≤ roundUnits p num den) :
    2 * T * den ≤ 2 * num + G * den := by
  have hnear := roundUnits_nearest (num := num) hp hd hL
  have hround : (T * den : Int) ≤ roundUnits p num den * den := by
    exact_mod_cast Nat.mul_le_mul_right den h
  have hsplit : (L * den : Int) + G * den = T * den := by
    rw [← hgap]
    push_cast
    ring
  have hpos : (0 : Int) < G * den := by positivity
  zify
  rw [mul_assoc]
  omega

/-- A rounding past the largest finite value, `2^top` less one spacing, comes of a result past the middle between
it and `2^top`. -/
theorem le_of_two_pow_le_roundUnits {p top num den : Nat} (hp : 1 ≤ p) (htop : p ≤ top) (hd : 1 ≤ den)
    (h : 2 ^ top ≤ roundUnits p num den) :
    2 ^ (top + 1) * den ≤ 2 * num + 2 ^ (top - p) * den := by
  have hgap : (2 ^ p - 1) * 2 ^ (top - p) + 2 ^ (top - p) = 2 ^ top := by
    rw [← Nat.succ_mul, Nat.succ_eq_add_one, Nat.sub_add_cancel Nat.one_le_two_pow, ← pow_add,
      Nat.add_sub_cancel' htop]
  rw [pow_succ']
  exact two_mul_le_of_le_roundUnits hp hd (representable_mul_two_pow hp (Nat.sub_le _ _) _)
    Nat.one_le_two_pow hgap h

theorem Format.two_le_precision (f : Format) : 2 ≤ f.precision := by cases f <;> decide

theorem Format.precision_le_topExp (f : Format) : f.precision ≤ f.topExp := by cases f <;> decide

/-- `Fp.round` rounds the exact signed value once. -/
theorem roundedOnce_round (f : Format) (c : Bool) (num : Nat) {den : Nat} (hd : 1 ≤ den) :
    RoundedOnce f (Fp.round f c num den) (signedUnits c num) den := by
  have hp := f.two_le_precision
  unfold Fp.round
  dsimp only
  split_ifs with hfin
  · refine .inl ⟨c, _, rfl, representable_roundUnits (by omega) hd, hfin, fun w hw => ?_⟩
    cases c with
    | false => exact roundUnits_spec_int hp hd hw
    | true =>
      obtain ⟨hle, htie⟩ := roundUnits_spec_int (num := num) hp hd (w := -w) (by simpa using hw)
      have hflip : ∀ x : Int, (-x * den - num).natAbs = (x * den - signedUnits true num).natAbs := by
        intro x
        rw [← Int.natAbs_neg, signedUnits_true]
        congr 1
        ring
      have hround : ((roundUnits f.precision num den * den : Int) - num).natAbs =
          (signedUnits true (roundUnits f.precision num den) * den - signedUnits true num).natAbs := by
        rw [← hflip, signedUnits_true, neg_neg]
      rw [hflip, hround] at hle htie
      exact ⟨hle, fun hne => htie fun h => hne (by rw [signedUnits_true, ← h, neg_neg])⟩
  · have hbig := le_of_two_pow_le_roundUnits (by omega) f.precision_le_topExp hd (Nat.le_of_not_lt hfin)
    have hpow : 2 ^ (f.topExp - f.precision) * den < 2 ^ (f.topExp + 1) * den :=
      Nat.mul_lt_mul_of_pos_right (Nat.pow_lt_pow_right one_lt_two (by omega)) hd
    have hpos : 0 < num := by omega
    right
    cases c with
    | false => exact ⟨by rw [signedUnits_false, decide_eq_false (by omega)], by simpa using hbig⟩
    | true => exact ⟨by simp [hpos], by simpa using hbig⟩

/-! ### The operations -/

theorem Fp.add_finite {f : Format} (a b : Bool) (u v : Nat) :
    (Fp.finite a u : Fp f).add (.finite b v) =
      if a = b then Fp.round f a (u + v) 1
      else if u < v then Fp.round f b (v - u) 1
      else if v < u then Fp.round f a (u - v) 1
      else .finite false 0 := rfl

theorem roundedOnce_zero (f : Format) : RoundedOnce f (.finite false 0) 0 1 := by
  refine .inl ⟨false, 0, rfl, representable_zero _, Nat.two_pow_pos _, fun w _ => ?_⟩
  simp

theorem roundedOnce_add (f : Format) (a b : Bool) (u v : Nat) :
    RoundedOnce f ((Fp.finite a u).add (.finite b v)) (signedUnits a u + signedUnits b v) 1 := by
  rw [Fp.add_finite]
  split_ifs with hab hlt hgt
  · rw [← hab, signedUnits_add_same]
    exact roundedOnce_round f a _ le_rfl
  · rw [signedUnits_add_of_le hab hlt.le]
    exact roundedOnce_round f b _ le_rfl
  · rw [add_comm, signedUnits_add_of_le (Ne.symm hab) hgt.le]
    exact roundedOnce_round f a _ le_rfl
  · obtain rfl : u = v := by omega
    rw [signedUnits_add_of_le hab le_rfl, Nat.sub_self]
    cases b <;> exact roundedOnce_zero f

theorem Fp.mul_finite {f : Format} (a b : Bool) (u v : Nat) :
    (Fp.finite a u : Fp f).mul (.finite b v) = Fp.round f (xor a b) (u * v) (2 ^ f.scale) := rfl

theorem Fp.div_finite {f : Format} (a b : Bool) (u : Nat) {v : Nat} (hv : v ≠ 0) :
    (Fp.finite a u : Fp f).div (.finite b v) = Fp.round f (xor a b) (u * 2 ^ f.scale) v :=
  if_neg hv

theorem Fp.narrow_finite (a : Bool) (u : Nat) :
    (Fp.finite a u : Fp .binary64).narrow = Fp.round .binary32 a u (2 ^ 925) := rfl

theorem Fp.sign_of_round {f : Format} {c c' : Bool} {num den r : Nat}
    (h : Fp.round f c num den = .finite c' r) : c' = c := by
  unfold Fp.round at h
  dsimp only at h
  split_ifs at h
  exact (Fp.finite.inj h).1.symm

/-- Settles O34: every operation is one `Fp.round`, which `roundedOnce_round` says is the exact result rounded
once. -/
theorem operationsRoundTheExactResult : Obligations.OperationsRoundTheExactResult := by
  refine ⟨fun f a b u v => ⟨roundedOnce_add f a b u v, ?_, fun hv => ?_, fun c r h => ?_, fun c r hv h => ?_⟩,
    fun a u => ⟨?_, u * 2 ^ 925, rfl, ?_⟩⟩
  · rw [Fp.mul_finite]
    exact roundedOnce_round f _ _ Nat.one_le_two_pow
  · rw [Fp.div_finite a b u hv]
    exact roundedOnce_round f _ _ (Nat.pos_of_ne_zero hv)
  · rw [Fp.mul_finite] at h
    exact Fp.sign_of_round h
  · rw [Fp.div_finite a b u hv] at h
    exact Fp.sign_of_round h
  · rw [Fp.narrow_finite]
    exact roundedOnce_round .binary32 a u (Nat.succ_le_of_lt (by positivity))
  · rw [Nat.mul_assoc, ← pow_add]

end Sys2Proof.Machine
end

section
/-! PROOF. Patterns of values (10_state.md R24) and the rounding of the accumulator (40_lut_linearizer.md R71). -/

namespace Sys2Proof.Machine

/-! ### Patterns -/

/-- Exponent field and fraction are read back from the value they stand for. -/
theorem magnitudeBits_unitsOfBits {p : Nat} (hp : 1 ≤ p) (bits : Nat) :
    magnitudeBits p (unitsOfBits p bits) = bits := by
  have hfrac : bits % 2 ^ (p - 1) < 2 ^ (p - 1) := Nat.mod_lt _ (Nat.two_pow_pos _)
  have hdouble : 2 ^ p = 2 ^ (p - 1) + 2 ^ (p - 1) := by
    rw [← Nat.two_mul, ← Nat.pow_succ']
    congr 1
    omega
  have hbits := Nat.div_add_mod' bits (2 ^ (p - 1))
  unfold magnitudeBits unitsOfBits
  dsimp only
  split_ifs with he
  · have hlog := log2_full_significand (e := 0) hp (by omega : bits % 2 ^ (p - 1) < 2 ^ p) (.inl rfl)
    rw [Nat.pow_zero, Nat.mul_one] at hlog
    rw [hlog]
    simpa [he] using hbits
  · have hlog := log2_full_significand (e := bits / 2 ^ (p - 1) - 1) hp
      (by omega : 2 ^ (p - 1) + bits % 2 ^ (p - 1) < 2 ^ p) (.inr (Nat.le_add_right _ _))
    rw [hlog, Nat.mul_div_cancel _ (Nat.two_pow_pos _), ← Nat.add_assoc, ← Nat.succ_mul,
      Nat.succ_eq_add_one, Nat.sub_add_cancel (Nat.one_le_iff_ne_zero.mpr he)]
    exact hbits

/-- What a pattern that is no NaN stands for: a finite value, or an infinity with an empty fraction. -/
theorem Fp.ofParts_cases {f : Format} {neg : Bool} {bits maxExponent : Nat}
    (h : Fp.ofParts f neg bits maxExponent ≠ .nan) :
    Fp.ofParts f neg bits maxExponent = .finite neg (unitsOfBits f.precision bits) ∨
      (Fp.ofParts f neg bits maxExponent = .inf neg ∧ bits = maxExponent * 2 ^ (f.precision - 1)) := by
  have hbits := Nat.div_add_mod' bits (2 ^ (f.precision - 1))
  unfold Fp.ofParts at h ⊢
  split_ifs at h ⊢ with hexp hfrac
  · rw [hexp, hfrac] at hbits
    exact .inr ⟨rfl, hbits.symm⟩
  · exact absurd rfl h
  · exact .inl rfl

/-- A pattern is its sign and the rest. -/
theorem ofBool_msb_append_extractLsb' {n : Nat} (w : BitVec (1 + n)) :
    BitVec.ofBool w.msb ++ w.extractLsb' 0 n = w := by
  apply BitVec.eq_of_getLsbD_eq
  intro i hi
  rw [BitVec.getLsbD_append]
  by_cases hin : i < n
  · simp [hin]
  · obtain rfl : i = n := by omega
    simp [BitVec.msb_eq_getLsbD_last]

/-- A pattern of `n` bits and a sign, read as a value that is no NaN, is what any `toBits` writes that puts the
sign before `magnitudeBits`, and before the exponent field of all ones for an infinity. -/
theorem toBits_ofParts {n maxExponent : Nat} {f : Format} (w : BitVec (1 + n)) {toBits : Fp f → BitVec (1 + n)}
    (hfinite : ∀ neg u, toBits (.finite neg u) =
      BitVec.ofBool neg ++ BitVec.ofNat n (magnitudeBits f.precision u))
    (hinf : ∀ neg, toBits (.inf neg) =
      BitVec.ofBool neg ++ BitVec.ofNat n (maxExponent * 2 ^ (f.precision - 1)))
    (h : Fp.ofParts f w.msb (w.extractLsb' 0 n).toNat maxExponent ≠ .nan) :
    toBits (Fp.ofParts f w.msb (w.extractLsb' 0 n).toNat maxExponent) = w := by
  have hpattern : BitVec.ofBool w.msb ++ BitVec.ofNat n (w.extractLsb' 0 n).toNat = w := by
    rw [BitVec.ofNat_toNat, BitVec.setWidth_eq]
    exact ofBool_msb_append_extractLsb' w
  rcases Fp.ofParts_cases h with h | ⟨h, hbits⟩
  · rw [h, hfinite, magnitudeBits_unitsOfBits (by have := f.two_le_precision; omega)]
    exact hpattern
  · rw [h, hinf, ← hbits]
    exact hpattern

/-- Settles O4: the sign stands apart, and `magnitudeBits` inverts `unitsOfBits`. -/
theorem patternsOfValuesAreExact : Obligations.PatternsOfValuesAreExact :=
  ⟨fun w => toBits_ofParts (n := 31) w (toBits := Fp.toBits32) (fun _ _ => rfl) (fun _ => rfl),
    fun w => toBits_ofParts (n := 63) w (toBits := Fp.toBits64) (fun _ _ => rfl) (fun _ => rfl)⟩

/-! ### The accumulator -/

theorem clamp_zero_4095 (n : Nat) : clamp n 0 4095 = min (n : Int) 4095 := by
  unfold clamp
  split_ifs <;> omega

/-- `⌊(2u + h) / 2h⌋` is the integer nearest to `u / h`, halves up. -/
theorem nearest_halves_up (u : Nat) {h n : Nat} (hh : 0 < h) (hn : n = (2 * u + h) / (2 * h)) :
    2 * u < (2 * n + 1) * h ∧ 2 * n * h ≤ 2 * u + h := by
  have hle := Nat.div_mul_le_self (2 * u + h) (2 * h)
  have hlt := Nat.lt_mul_div_succ (2 * u + h) (by omega : 0 < 2 * h)
  rw [← hn] at hle hlt
  constructor
  · have : (2 * n + 1) * h + h = 2 * h * (n + 1) := by ring
    omega
  · have : 2 * n * h = n * (2 * h) := by ring
    omega

theorem nearestInteger_eq (u : Nat) : nearestInteger u = (2 * u + 2 ^ 1074) / (2 * 2 ^ 1074) := by
  rw [nearestInteger, pow_succ' 2 1074]

/-- Settles O36 with `n = nearestInteger u`. -/
theorem accumulatorRoundsHalvesUp : Obligations.AccumulatorRoundsHalvesUp := by
  intro u
  obtain ⟨hlt, hle⟩ := nearest_halves_up u (h := 2 ^ 1074) (by positivity) (nearestInteger_eq u)
  exact ⟨nearestInteger u, hlt, hle, clamp_zero_4095 _⟩

end Sys2Proof.Machine
end

section
/-! PROOF. The engine's step, and that a running command is completed or abandoned within the schedule. -/

namespace Sys2Proof.Machine

/-! ### The engine's step (00_scope.md R3, 30_encoding.md R60) -/

theorem step_of_nil {s : State} (h : s.turns = []) : step s = engineStep s := by
  rw [step, h]

theorem step_of_cons {s : State} {t : Turn} {rest : List Turn} (h : s.turns = t :: rest) :
    step s = takeTurn t { s with turns := rest } := by
  rw [step, h]

theorem engineStep_of_ok {s : State} {i : Instr} (hb : s.busy = true) (hd : decode s.latch.cmd = .ok i) :
    engineStep s = exec i s := by
  simp [engineStep, State.latched, hb, hd]

theorem engineStep_of_error {s : State} {e : Illegal} (hb : s.busy = true)
    (hd : decode s.latch.cmd = .error e) : engineStep s = .next (s.finished 0x01#8) := by
  simp only [engineStep, State.latched, hb, hd, if_true]
  rfl

theorem engineStep_of_idle {s : State} (hb : s.busy = false) : engineStep s = .next s := by
  simp [engineStep, hb]

/-- Settles O5: `step` at the engine's move is `engineStep`, which has one case each. -/
theorem stepRunsTheLatchedCommand : Obligations.StepRunsTheLatchedCommand := by
  refine fun s => ⟨fun i hb hd => ⟨fun rest h => ?_, fun h => ?_⟩,
    fun e hb hd => ⟨fun rest h => ?_, fun h => ?_⟩, fun hb => ⟨fun rest h => ?_, fun h => ?_⟩⟩
  · exact (step_of_cons h).trans (engineStep_of_ok hb hd)
  · exact (step_of_nil h).trans (engineStep_of_ok hb hd)
  · exact (step_of_cons h).trans (engineStep_of_error hb hd)
  · exact (step_of_nil h).trans (engineStep_of_error hb hd)
  · exact (step_of_cons h).trans (engineStep_of_idle hb)
  · exact (step_of_nil h).trans (engineStep_of_idle hb)

/-! ### Completion within the schedule (70_reset_and_hazards.md R119, R123) -/

/-- A busy engine's turn sets `DONE`. -/
theorem State.afterCommand_done {s : State} (hb : s.busy = true) : s.afterCommand.done = true := by
  have hs := engineStep_eq s
  cases hd : decode s.latch.cmd with
  | ok i =>
    obtain ⟨t, ht, -, hdone⟩ := exec_idle i s
    rw [engineStep_of_ok hb hd, ht] at hs
    rw [← Host.Outcome.next.inj hs]
    exact hdone
  | error e =>
    rw [engineStep_of_error hb hd] at hs
    rw [← Host.Outcome.next.inj hs]
    rfl

theorem step_of_engineMoves {s : State} (h : s.EngineMoves) :
    ∃ rest, step s = .next ({ s with turns := rest } : State).afterCommand := by
  rcases h with h | ⟨rest, h⟩
  · exact ⟨s.turns, (step_of_nil h).trans (engineStep_eq s)⟩
  · exact ⟨rest, (step_of_cons h).trans (engineStep_eq _)⟩

/-- A host access neither ends a running command nor touches its latch (20_memory.md R42, R43), nor the
schedule. -/
theorem State.hostAccess_of_busy {s : State} (hb : s.busy = true) (a : HostAccess) :
    (s.hostAccess a).busy = true ∧ (s.hostAccess a).latch = s.latch ∧ (s.hostAccess a).turns = s.turns := by
  cases a with
  | regRead off enables =>
    rw [State.hostAccess, State.regRead_eq]
    exact ⟨hb, rfl, rfl⟩
  | regWrite off v enables =>
    rw [State.hostAccess]
    rcases s.regWrite_cases off v enables with ⟨-, h⟩ | ⟨-, -, h⟩ | ⟨-, -, r, -, h⟩
    · rw [h]
      exact ⟨hb, rfl, rfl⟩
    · rw [h]
      exact ⟨hb, rfl, rfl⟩
    · rw [h]
      cases r <;> simp [State.writeReg, State.writeCmd, hb]
  | memRead addr =>
    rw [State.hostAccess, State.hostRead_eq]
    exact ⟨hb, rfl, rfl⟩
  | memWrite addr v =>
    rw [State.hostAccess]
    rcases s.hostWrite_cases addr v with ⟨-, h⟩ | ⟨-, h⟩ <;> rw [h] <;> exact ⟨hb, rfl, rfl⟩

/-- `u` is about to end the command of `s`: the engine moves or reset is asserted. -/
def State.EndsCommand (u : State) : Prop :=
  ∃ t, step u = .next t ∧ t.busy = false ∧ ((u.EngineMoves ∧ t.done = true) ∨ u.ResetMoves)

theorem State.EngineMoves.endsCommand {u : State} (h : u.EngineMoves) (hb : u.busy = true) : u.EndsCommand := by
  obtain ⟨rest, hstep⟩ := step_of_engineMoves h
  exact ⟨_, hstep, State.afterCommand_busy _, .inl ⟨h, State.afterCommand_done hb⟩⟩

theorem State.ResetMoves.endsCommand {u : State} (h : u.ResetMoves) : u.EndsCommand := by
  obtain ⟨rest, hturns⟩ := h
  exact ⟨State.resetBlock _, step_of_cons hturns, rfl, .inr ⟨rest, hturns⟩⟩

theorem core_run_succ {s u : State} (h : step s = .next u) (k : Nat) :
    Sys2Proof.core.run (k + 1) s = Sys2Proof.core.run k u := by
  have hcore : Sys2Proof.core.step s = .next u := h
  simp only [Host.Core.run, hcore]

/-- The turns before the first engine turn or assertion of reset keep the command running. -/
theorem completion_comes (turns : List Turn) : ∀ s : State, s.turns = turns → s.busy = true →
    ∃ k u, k ≤ turns.length ∧ Sys2Proof.core.run k s = .next u ∧ u.busy = true ∧ u.latch = s.latch ∧
      u.EndsCommand ∧ (.assertReset ∉ turns → u.EngineMoves) := by
  induction turns with
  | nil =>
    intro s hs hb
    exact ⟨0, s, le_rfl, rfl, hb, rfl, State.EngineMoves.endsCommand (.inl hs) hb, fun _ => .inl hs⟩
  | cons t rest ih =>
    intro s hs hb
    have later : ∀ v : State, step s = .next v → v.turns = rest → v.busy = true → v.latch = s.latch →
        ∃ k u, k ≤ (t :: rest).length ∧ Sys2Proof.core.run k s = .next u ∧ u.busy = true ∧
          u.latch = s.latch ∧ u.EndsCommand ∧ (.assertReset ∉ t :: rest → u.EngineMoves) := by
      intro v hstep hv hvb hvl
      obtain ⟨k, u, hk, hrun, hub, hul, hends, hmoves⟩ := ih v hv hvb
      exact ⟨k + 1, u, Nat.succ_le_succ hk, (core_run_succ hstep k).trans hrun, hub, hul.trans hvl, hends,
        fun h => hmoves fun hmem => h (List.mem_cons_of_mem _ hmem)⟩
    cases t with
    | host a =>
      obtain ⟨hbusy, hlatch, hturns⟩ := State.hostAccess_of_busy (s := { s with turns := rest }) hb a
      exact later _ (step_of_cons hs) hturns hbusy hlatch
    | engine =>
      have hmoves : s.EngineMoves := .inr ⟨rest, hs⟩
      exact ⟨0, s, Nat.zero_le _, rfl, hb, rfl, hmoves.endsCommand hb, fun _ => hmoves⟩
    | assertReset =>
      exact ⟨0, s, Nat.zero_le _, rfl, hb, rfl, State.ResetMoves.endsCommand ⟨rest, hs⟩,
        fun h => absurd List.mem_cons_self h⟩
    | releaseReset => exact later _ (step_of_cons hs) rfl hb rfl

/-- Settles O8, by `completion_comes`, an induction on the schedule. -/
theorem completionAlwaysComes : Obligations.CompletionAlwaysComes := by
  intro s hb
  obtain ⟨k, u, hk, hrun, hub, hul, ⟨t, hstep, htb, hends⟩, hmoves⟩ := completion_comes s.turns s rfl hb
  exact ⟨k, u, t, hk, hrun, hub, hul, hstep, htb, hends, hmoves⟩

end Sys2Proof.Machine
end

section
/-! PROOF. Which bytes of frame memory a step can change (20_memory.md R45, R49, R52): what each of the engine,
the host and an assertion of reset leaves, then one case a turn. -/

namespace Sys2Proof.Machine

/-- A legal state's geometry is that of R33, set or not. -/
theorem LegalState.geometryOk {s : State} (h : LegalState s) : s.GeometryOk := by
  unfold State.GeometryOk
  cases hv : s.geomValid with
  | true => exact (h.geometry_legal hv).2.2
  | false =>
    obtain ⟨hw, -, hst⟩ := h.geometry_unset hv
    rw [hw, hst]
    rfl

/-- What a byte that the running `PROCESS_FRAME` changes satisfies (20_memory.md R46; log 9). -/
def State.FrameMayChange (s : State) (a : Nat) : Prop :=
  s.inFrameRegion a = true ∧ (s.FrameAccepted ∨ ¬s.BorrowKept) ∧ s.busy = true ∧
    decode s.latch.cmd = .ok .processFrame

/-- A byte that settling the frame changes lies in the region, and H-2 or H-3 is broken. -/
theorem State.settle_changes {s : State} (hm : s.mem.wf = true) (hg : s.GeometryOk) {a : Nat}
    (h : s.settle.mem.read a ≠ s.mem.read a) : s.inFrameRegion a = true ∧ ¬s.BorrowKept := by
  constructor
  · by_contra hout
    exact h (State.settle_read_of_not_unsettled hm fun hu =>
      hout (State.unspecifiedBytes_inRegion hg (State.mem_unspecifiedBytes.mpr hu)))
  · intro hkept
    exact h (by rw [State.settle_of_kept hkept])

/-- The engine changes a byte only by the `PROCESS_FRAME` it completes. -/
theorem State.afterCommand_changes {s : State} (hm : s.mem.wf = true) (hg : s.GeometryOk) {a : Nat}
    (h : s.afterCommand.mem.read a ≠ s.mem.read a) : s.FrameMayChange a := by
  rcases s.afterCommand_cases with ⟨-, hc⟩ | ⟨-, c, -, hc⟩ | ⟨-, ks, -, -, -, hc⟩ | ⟨-, -, -, -, -, -, -, hc⟩ |
    ⟨hb, hd, -, c, -, hc⟩ | ⟨hb, hd, hacc, hc⟩ <;> rw [hc] at h
  · exact absurd rfl h
  · exact absurd rfl h
  · exact absurd rfl h
  · exact absurd rfl h
  · obtain ⟨hregion, hbroken⟩ := State.settle_changes hm hg (by simpa using h)
    exact ⟨hregion, .inr hbroken, hb, hd⟩
  · refine ⟨?_, .inl hacc, hb, hd⟩
    by_contra hout
    have houtside := State.convolved_read_outside (s := s.ensureKernel) (a := a) (by simpa using hm)
      (by simpa using hg) (by simpa using hout)
    rw [State.convolve_eq] at h
    exact h (by simpa using houtside)

/-- An assertion of reset changes a byte only by the `PROCESS_FRAME` it abandons (R119). -/
theorem State.abandonFrame_changes {s : State} (hm : s.mem.wf = true) (hg : s.GeometryOk) {a : Nat}
    (h : s.abandonFrame.mem.read a ≠ s.mem.read a) : s.FrameMayChange a := by
  rcases s.abandonFrame_cases with ⟨hb, hd, hacc, hc⟩ | ⟨hb, hd, -, hc⟩ | ⟨-, hc⟩ <;> rw [hc] at h
  · refine ⟨?_, .inl hacc, hb, hd⟩
    by_contra hout
    rw [State.freeBytes_read hm, if_neg fun hmem => hout (State.unspecifiedBytes_inRegion hg hmem)] at h
    exact h rfl
  · obtain ⟨hregion, hbroken⟩ := State.settle_changes hm hg h
    exact ⟨hregion, .inr hbroken, hb, hd⟩
  · exact absurd rfl h

/-- The host changes a byte only by its own write to it. -/
theorem State.hostAccess_changes {s : State} (hm : s.mem.wf = true) {access : HostAccess} {a : Nat}
    (h : (s.hostAccess access).mem.read a ≠ s.mem.read a) :
    ∃ addr v, access = .memWrite addr v ∧ addr.toNat = a ∧ (s.hostAccess access).mem.read a = v := by
  cases access with
  | regRead off enables =>
    rw [State.hostAccess, State.regRead_eq] at h
    exact absurd rfl h
  | regWrite off v enables =>
    rw [State.hostAccess] at h
    rcases s.regWrite_cases off v enables with ⟨-, hc⟩ | ⟨-, -, hc⟩ | ⟨-, -, r, -, hc⟩ <;> rw [hc] at h
    · exact absurd rfl h
    · exact absurd rfl h
    · refine absurd (congrArg (Memory.read · a) ?_) h
      cases r
      case cmd => cases hb : s.busy <;> simp [State.writeReg, State.writeCmd, hb]
      all_goals rfl
  | memRead addr =>
    rw [State.hostAccess, State.hostRead_eq] at h
    exact absurd rfl h
  | memWrite addr v =>
    rw [State.hostAccess] at h ⊢
    rcases s.hostWrite_cases addr v with ⟨-, hc⟩ | ⟨-, hc⟩ <;> rw [hc] at h ⊢
    · exact absurd rfl h
    · have hread := Memory.read_write hm addr.toNat v a
      by_cases ha : a = addr.toNat
      · exact ⟨addr, v, rfl, ha.symm, by rw [hread, if_pos ha]⟩
      · exact absurd (by rw [hread, if_neg ha]) h

/-- Settles O54, turn by turn: the engine's, the host's and a reset's changes are as the three lemmas above say,
and taking a turn off the schedule moves none of what they speak of. -/
theorem memoryChangesOnlyByHostOrFrame : Obligations.MemoryChangesOnlyByHostOrFrame := by
  intro s t hlegal hstep a hne
  have hm := hlegal.memory_canonical
  have hg := hlegal.geometryOk
  rcases step_cases hstep with ⟨hs, rfl⟩ | ⟨access, rest, hs, rfl⟩ | ⟨rest, hs, rfl⟩ | ⟨rest, hs, rfl⟩ |
    ⟨rest, hs, rfl⟩
  · obtain ⟨hregion, hwhy, hb, hd⟩ := State.afterCommand_changes hm hg hne
    exact .inr ⟨hregion, hwhy, hb, hd, .inl (.inl hs)⟩
  · obtain ⟨addr, v, rfl, haddr, hv⟩ := State.hostAccess_changes (s := { s with turns := rest }) hm hne
    exact .inl ⟨addr, v, rest, hs, haddr, hv⟩
  · obtain ⟨hregion, hwhy, hb, hd⟩ := State.afterCommand_changes (s := { s with turns := rest }) hm hg hne
    exact .inr ⟨hregion, hwhy, hb, hd, .inl (.inr ⟨rest, hs⟩)⟩
  · obtain ⟨hregion, hwhy, hb, hd⟩ := State.abandonFrame_changes (s := { s with turns := rest }) hm hg hne
    exact .inr ⟨hregion, hwhy, hb, hd, .inr ⟨rest, hs⟩⟩
  · exact absurd rfl hne

end Sys2Proof.Machine
end

section
/-! PROOF. The exponential (00_scope.md R11; log 14): the bracket holds `e^(-x)`, by a series with remainder at
`y = x / 2^18` and eighteen squarings, and a value between two numbers that round alike rounds as they do. -/

namespace Sys2Proof.Machine

/-! ### Roundings outward -/

theorem div_le_ceilDiv (a b : Nat) : (a : ℝ) / b ≤ ceilDiv a b := by
  rcases Nat.eq_zero_or_pos b with rfl | hb
  · simp
  · have hlt := Nat.lt_mul_div_succ (a + b - 1) hb
    have hle : a ≤ b * ceilDiv a b := by
      unfold ceilDiv
      rw [Nat.mul_succ] at hlt
      omega
    rw [div_le_iff₀' (by positivity)]
    exact_mod_cast hle

theorem ceilDiv_le {a b k : Nat} (hb : 0 < b) (h : a ≤ k * b) : ceilDiv a b ≤ k := by
  rw [ceilDiv, ← Nat.lt_succ_iff, Nat.div_lt_iff_lt_mul hb, Nat.succ_mul]
  omega

/-- A difference cut off at 0 is still below a non-negative bound of the difference. -/
theorem cast_sub_le_of_nonneg {a b : Nat} {z : ℝ} (hz : 0 ≤ z) (h : (a : ℝ) - b ≤ z) :
    ((a - b : Nat) : ℝ) ≤ z := by
  rcases le_total b a with hba | hab
  · rwa [Nat.cast_sub hba]
  · rwa [Nat.sub_eq_zero_of_le hab, Nat.cast_zero]

theorem sub_le_cast_sub (a b : Nat) : (a : ℝ) - b ≤ ((a - b : Nat) : ℝ) := by
  rw [sub_le_iff_le_add]
  exact_mod_cast (le_tsub_add : a ≤ a - b + b)

/-! ### Brackets -/

/-- The bracket holds `x`, in its own units. -/
def Bracket.Holds (b : Bracket) (x : ℝ) : Prop := (b.lo : ℝ) ≤ x * 2 ^ expBits ∧ x * 2 ^ expBits ≤ b.hi

/-- Neither end is above 1. -/
def Bracket.AtMostOne (b : Bracket) : Prop := b.lo ≤ 2 ^ expBits ∧ b.hi ≤ 2 ^ expBits

theorem Bracket.Holds.square {b : Bracket} {x : ℝ} (hx : 0 ≤ x) (h : b.Holds x) : b.square.Holds (x ^ 2) := by
  obtain ⟨hlo, hhi⟩ := h
  have hscale : x ^ 2 * 2 ^ expBits = (x * 2 ^ expBits) * (x * 2 ^ expBits) / 2 ^ expBits := by
    field_simp
  unfold Bracket.Holds
  rw [hscale]
  constructor
  · calc ((b.lo * b.lo / 2 ^ expBits : Nat) : ℝ) ≤ ((b.lo * b.lo : Nat) : ℝ) / (2 ^ expBits : Nat) :=
          Nat.cast_div_le
      _ = (b.lo : ℝ) * b.lo / 2 ^ expBits := by push_cast; rfl
      _ ≤ _ := by gcongr
  · calc (x * 2 ^ expBits) * (x * 2 ^ expBits) / 2 ^ expBits ≤ (b.hi : ℝ) * b.hi / 2 ^ expBits := by gcongr
      _ = ((b.hi * b.hi : Nat) : ℝ) / (2 ^ expBits : Nat) := by push_cast; rfl
      _ ≤ _ := div_le_ceilDiv _ _

theorem Bracket.AtMostOne.square {b : Bracket} (h : b.AtMostOne) : b.square.AtMostOne :=
  ⟨Nat.div_le_of_le_mul (Nat.mul_le_mul h.1 h.1), ceilDiv_le (by positivity) (Nat.mul_le_mul h.2 h.2)⟩

theorem Bracket.Holds.squareTimes (n : Nat) {b : Bracket} {x : ℝ} (hx : 0 ≤ x) (h : b.Holds x) :
    (Bracket.squareTimes n b).Holds (x ^ 2 ^ n) := by
  induction n generalizing b x with
  | zero => simpa [Bracket.squareTimes] using h
  | succ n ih =>
    rw [pow_succ', pow_mul]
    exact ih (by positivity) (h.square hx)

theorem Bracket.AtMostOne.squareTimes (n : Nat) {b : Bracket} (h : b.AtMostOne) :
    (Bracket.squareTimes n b).AtMostOne := by
  induction n generalizing b with
  | zero => exact h
  | succ n ih => exact ih h.square

/-! ### The series and its tails -/

/-- `T(m + 1) = Σ_j (-y)^j m! / (m + j)!`, the tail of the exponential series from its term `m` on, scaled by that
term. -/
noncomputable def expTail (y : ℝ) (m : Nat) : ℝ := ∑' j : Nat, (-y) ^ j * (m.factorial / (m + j).factorial)

theorem norm_expTail_term_le {y : ℝ} (hy : 0 ≤ y) (m j : Nat) :
    ‖(-y) ^ j * ((m.factorial : ℝ) / (m + j).factorial)‖ ≤ y ^ j := by
  rw [norm_mul, norm_pow, norm_neg, Real.norm_of_nonneg hy, Real.norm_of_nonneg (by positivity)]
  refine mul_le_of_le_one_right (by positivity) (div_le_one_of_le₀ ?_ (by positivity))
  exact_mod_cast Nat.factorial_le (Nat.le_add_right m j)

theorem summable_expTail {y : ℝ} (hy : 0 ≤ y) (hy1 : y < 1) (m : Nat) :
    Summable fun j : Nat => (-y) ^ j * ((m.factorial : ℝ) / (m + j).factorial) :=
  (summable_geometric_of_lt_one hy hy1).of_norm_bounded (norm_expTail_term_le hy m)

/-- The step of the series, from the far end (`Bracket.tailStep`). -/
theorem expTail_eq {y : ℝ} (hy : 0 ≤ y) (hy1 : y < 1) (m : Nat) :
    expTail y m = 1 - y / (m + 1 : Nat) * expTail y (m + 1) := by
  have hterm : ∀ j : Nat, (-y) ^ (j + 1) * ((m.factorial : ℝ) / (m + (j + 1)).factorial) =
      -(y / (m + 1 : Nat)) * ((-y) ^ j * ((m + 1).factorial / (m + 1 + j).factorial)) := by
    intro j
    have hadd : m + (j + 1) = m + 1 + j := by omega
    rw [hadd, Nat.factorial_succ m, pow_succ]
    push_cast
    field_simp
  unfold expTail
  rw [(summable_expTail hy hy1 m).tsum_eq_zero_add, tsum_congr hterm, tsum_mul_left]
  have hfirst : (-y) ^ 0 * ((m.factorial : ℝ) / (m + 0).factorial) = 1 := by
    rw [pow_zero, one_mul, Nat.add_zero, div_self (by positivity)]
  rw [hfirst]
  ring

theorem expTail_zero (y : ℝ) : expTail y 0 = Real.exp (-y) := by
  rw [Real.exp_eq_exp_ℝ, NormedSpace.exp_eq_tsum_div]
  refine tsum_congr fun j => ?_
  rw [Nat.factorial_zero, Nat.cast_one, Nat.zero_add, mul_one_div]

/-- Every tail lies between 0 and 1: its terms are below those of the geometric series, so it is at most 2 in
size, and one step of the series brings it into the interval. -/
theorem expTail_mem_unit {y : ℝ} (hy : 0 ≤ y) (hy1 : y ≤ 1 / 2) (m : Nat) :
    0 ≤ expTail y m ∧ expTail y m ≤ 1 := by
  have hlt : y < 1 := by linarith
  have hsize : ∀ k, |expTail y k| ≤ 2 := by
    intro k
    refine (tsum_of_norm_bounded (hasSum_geometric_of_lt_one hy hlt) (norm_expTail_term_le hy k)).trans ?_
    rw [inv_le_comm₀ (by linarith) two_pos]
    linarith
  have hfrac : ∀ k : Nat, 0 ≤ y / (k + 1 : Nat) ∧ y / (k + 1 : Nat) ≤ 1 / 2 := by
    intro k
    refine ⟨by positivity, (div_le_self hy ?_).trans hy1⟩
    exact_mod_cast Nat.le_add_left 1 k
  have hnonneg : ∀ k, 0 ≤ expTail y k := by
    intro k
    rw [expTail_eq hy hlt]
    nlinarith [hfrac k, abs_le.mp (hsize (k + 1))]
  refine ⟨hnonneg m, ?_⟩
  rw [expTail_eq hy hlt]
  have := mul_nonneg (hfrac m).1 (hnonneg (m + 1))
  linarith

/-! ### The bracket of the exponential -/

/-- The argument of the series, `x / 2^18`. -/
noncomputable def seriesArgument (units : Nat) : ℝ := units / 2 ^ (1074 + expHalvings)

theorem seriesArgument_nonneg (units : Nat) : 0 ≤ seriesArgument units := by
  unfold seriesArgument
  positivity

theorem seriesArgument_le_half {units : Nat} (h : units < 2 ^ 1084) : seriesArgument units ≤ 1 / 2 := by
  have hcast : (units : ℝ) ≤ 2 ^ 1084 := by exact_mod_cast h.le
  unfold seriesArgument
  rw [div_le_div_iff₀ (by positivity) two_pos, one_mul]
  calc (units : ℝ) * 2 ≤ 2 ^ 1084 * 2 := by gcongr
    _ = 2 ^ (1084 + 1) := (pow_succ _ _).symm
    _ ≤ 2 ^ (1074 + expHalvings) := pow_le_pow_right₀ one_le_two (by decide)

/-- One step of the series keeps the bracket. -/
theorem Bracket.Holds.tailStep {units m : Nat} {b : Bracket} {y : ℝ} (hy : y = seriesArgument units)
    (hhalf : y ≤ 1 / 2) (h : b.Holds (expTail y (m + 1))) :
    (Bracket.tailStep units (m + 1) b).Holds (expTail y m) := by
  have hy0 : 0 ≤ y := hy ▸ seriesArgument_nonneg units
  obtain ⟨hlo, hhi⟩ := h
  have hden : 0 < ((m + 1 : Nat) : ℝ) * 2 ^ (1074 + expHalvings) := by positivity
  have hstep : expTail y m * 2 ^ expBits = 2 ^ expBits -
      units * (expTail y (m + 1) * 2 ^ expBits) / ((m + 1 : Nat) * 2 ^ (1074 + expHalvings)) := by
    have hyk : y / (m + 1 : Nat) = units / ((m + 1 : Nat) * 2 ^ (1074 + expHalvings)) := by
      rw [hy, seriesArgument, div_div, mul_comm]
    rw [expTail_eq hy0 (by linarith), hyk, sub_mul, one_mul, div_mul_eq_mul_div, div_mul_eq_mul_div, mul_assoc]
  constructor
  · refine cast_sub_le_of_nonneg (mul_nonneg (expTail_mem_unit hy0 hhalf m).1 (by positivity)) ?_
    have hceil := div_le_ceilDiv (units * b.hi) ((m + 1) * 2 ^ (1074 + expHalvings))
    push_cast at hceil hstep ⊢
    rw [hstep]
    refine sub_le_sub_left (le_trans ?_ hceil) _
    gcongr
  · refine le_trans ?_ (sub_le_cast_sub _ _)
    have hfloor : ((units * b.lo / ((m + 1) * 2 ^ (1074 + expHalvings)) : Nat) : ℝ) ≤ _ := Nat.cast_div_le
    push_cast at hfloor hstep ⊢
    rw [hstep]
    refine sub_le_sub_left (hfloor.trans ?_) _
    gcongr

theorem tailBracket_holds {units : Nat} (h : units < 2 ^ 1084) (terms m : Nat) :
    (tailBracket units terms (m + 1)).Holds (expTail (seriesArgument units) m) := by
  have hhalf := seriesArgument_le_half h
  induction terms generalizing m with
  | zero =>
    obtain ⟨h0, h1⟩ := expTail_mem_unit (seriesArgument_nonneg units) hhalf m
    refine ⟨?_, ?_⟩
    · simp only [tailBracket, Nat.cast_zero]
      positivity
    · simp only [tailBracket, Nat.cast_pow, Nat.cast_ofNat]
      exact mul_le_of_le_one_left (by positivity) h1
  | succ terms ih => exact (ih (m + 1)).tailStep rfl hhalf

theorem tailBracket_atMostOne (units terms k : Nat) : (tailBracket units terms k).AtMostOne := by
  cases terms with
  | zero => exact ⟨Nat.zero_le _, le_rfl⟩
  | succ terms => exact ⟨Nat.sub_le _ _, Nat.sub_le _ _⟩

theorem expBracket_atMostOne (units : Nat) : (expBracket units).AtMostOne :=
  (tailBracket_atMostOne units 128 1).squareTimes expHalvings

/-- The bracket holds the exponential: the series gives `e^(-y)`, and the squarings its `2^18`-th power. -/
theorem expBracket_holds {units : Nat} (h : units < 2 ^ 1084) :
    (expBracket units).Holds (Real.exp (-((units : ℝ) / 2 ^ 1074))) := by
  have htail := tailBracket_holds h 128 0
  rw [expTail_zero] at htail
  have hpow : Real.exp (-((units : ℝ) / 2 ^ 1074)) =
      Real.exp (-seriesArgument units) ^ 2 ^ expHalvings := by
    rw [← Real.exp_nat_mul, seriesArgument, pow_add]
    congr 1
    push_cast
    field_simp
  rw [hpow]
  exact htail.squareTimes expHalvings (Real.exp_nonneg _)

/-! ### The rounding of the exponential -/

theorem roundUnits_nearest_real {p num den v : Nat} (hp : 1 ≤ p) (hd : 1 ≤ den) (hv : Representable p v) :
    |(roundUnits p num den : ℝ) - num / den| ≤ |(v : ℝ) - num / den| := by
  have hpos : (0 : ℝ) < den := by exact_mod_cast hd
  have hnear : |((roundUnits p num den * den : Int) - num)| ≤ |((v * den : Int) - num)| := by
    rw [Int.abs_eq_natAbs, Int.abs_eq_natAbs]
    exact Int.ofNat_le.mpr (roundUnits_nearest hp hd hv)
  have hreal : |((roundUnits p num den : ℝ) * den - num)| ≤ |((v : ℝ) * den - num)| := by
    exact_mod_cast hnear
  have hdiv : ∀ r : ℝ, r - num / den = (r * den - num) / den := by
    intro r
    field_simp
  rw [hdiv, hdiv, abs_div, abs_div]
  gcongr

/-- Where `r` is at least as near as `v` to both ends of an interval, it is to every point of it. -/
theorem abs_sub_le_of_ends {r v a b x : ℝ} (hax : a ≤ x) (hxb : x ≤ b) (ha : |r - a| ≤ |v - a|)
    (hb : |r - b| ≤ |v - b|) : |r - x| ≤ |v - x| := by
  rw [← sq_le_sq] at *
  rcases le_total r v with h | h
  · nlinarith
  · nlinarith

theorem expOfNegative_of_large {u : Nat} (h : 2 ^ 1084 ≤ u) : expOfNegative u = 0 := if_pos h

theorem expOfNegative_of_small {u : Nat} (h : u < 2 ^ 1084) :
    expOfNegative u = agreed u (roundUnits 53 (expBracket u).lo (2 ^ (expBits - 1074)))
      (roundUnits 53 (expBracket u).hi (2 ^ (expBits - 1074))) := if_neg (Nat.not_le.mpr h)

theorem agreed_cases (u lower upper : Nat) : agreed u lower upper = lower ∨ agreed u lower upper = upper := by
  unfold agreed
  split_ifs <;> simp

theorem agreed_self (u n : Nat) : agreed u n n = n := if_pos rfl

/-- The unit of the subnormals in the bracket's units, as a divisor. -/
theorem one_le_bracket_divisor : 1 ≤ 2 ^ (expBits - 1074) := Nat.succ_le_of_lt (by positivity)

/-- An end of a bracket of at most 1 rounds to a value of at most 1. -/
theorem roundUnits_end_le_one {n : Nat} (h : n ≤ 2 ^ expBits) :
    roundUnits 53 n (2 ^ (expBits - 1074)) ≤ 2 ^ 1074 := by
  refine roundUnits_le (by decide) one_le_bracket_divisor (representable_two_pow (by decide) _) (h.trans_eq ?_)
  rw [← pow_add, Nat.add_sub_cancel' (by decide : 1074 ≤ expBits)]

/-- The exponential of `-x` is a representable value of at most 1. -/
theorem expOfNegative_representable_le_one (u : Nat) :
    Representable 53 (expOfNegative u) ∧ expOfNegative u ≤ 2 ^ 1074 := by
  have hend : ∀ n ≤ 2 ^ expBits, Representable 53 (roundUnits 53 n (2 ^ (expBits - 1074))) ∧
      roundUnits 53 n (2 ^ (expBits - 1074)) ≤ 2 ^ 1074 := fun n hn =>
    ⟨representable_roundUnits (by decide) one_le_bracket_divisor, roundUnits_end_le_one hn⟩
  rcases Nat.lt_or_ge u (2 ^ 1084) with h | h
  · obtain ⟨hlo, hhi⟩ := expBracket_atMostOne u
    rw [expOfNegative_of_small h]
    rcases agreed_cases u (roundUnits 53 (expBracket u).lo (2 ^ (expBits - 1074)))
      (roundUnits 53 (expBracket u).hi (2 ^ (expBits - 1074))) with hc | hc <;> rw [hc]
    · exact hend _ hlo
    · exact hend _ hhi
  · rw [expOfNegative_of_large h]
    exact ⟨representable_zero _, Nat.zero_le _⟩

/-- Where both ends of the bracket round alike, that is the nearest to the exponential. -/
theorem expOfNegative_nearest_of_agreement {u v : Nat} (hu : u < 2 ^ 1084)
    (hagree : roundUnits 53 (expBracket u).lo (2 ^ (expBits - 1074)) =
      roundUnits 53 (expBracket u).hi (2 ^ (expBits - 1074))) (hv : Representable 53 v) :
    |(expOfNegative u : ℝ) - Real.exp (-((u : ℝ) / 2 ^ 1074)) * 2 ^ 1074| ≤
      |(v : ℝ) - Real.exp (-((u : ℝ) / 2 ^ 1074)) * 2 ^ 1074| := by
  obtain ⟨hlo, hhi⟩ := expBracket_holds hu
  have hsplit : (2 : ℝ) ^ expBits = 2 ^ 1074 * 2 ^ (expBits - 1074) := by
    rw [← pow_add, Nat.add_sub_cancel' (by decide : 1074 ≤ expBits)]
  rw [hsplit, ← mul_assoc] at hlo hhi
  have hnear : ∀ n, |(roundUnits 53 n (2 ^ (expBits - 1074)) : ℝ) - n / 2 ^ (expBits - 1074)| ≤
      |(v : ℝ) - n / 2 ^ (expBits - 1074)| := by
    intro n
    have := roundUnits_nearest_real (num := n) (by decide : 1 ≤ 53)
      one_le_bracket_divisor hv
    simpa only [Nat.cast_pow, Nat.cast_ofNat] using this
  have hupper := hnear (expBracket u).hi
  rw [← hagree] at hupper
  rw [← div_le_iff₀ (by positivity)] at hlo
  rw [← le_div_iff₀ (by positivity)] at hhi
  rw [expOfNegative_of_small hu, ← hagree, agreed_self]
  exact abs_sub_le_of_ends hlo hhi (hnear _) hupper

/-- `e^1024` is above `2^1075`, so that from there on `e^(-x)` is below half of the smallest subnormal. -/
theorem two_pow_le_exp : (2 : ℝ) ^ 1075 ≤ Real.exp 1024 := by
  have hfour : (2 : ℝ) ^ 5 ≤ Real.exp 1 ^ 4 := by
    calc (2 : ℝ) ^ 5 ≤ 2.7 ^ 4 := by norm_num
      _ ≤ Real.exp 1 ^ 4 := by
        gcongr
        linarith [Real.exp_one_gt_d9]
  calc (2 : ℝ) ^ 1075 ≤ 2 ^ (5 * 256) := pow_le_pow_right₀ one_le_two (by decide)
    _ = (2 ^ 5) ^ 256 := pow_mul _ _ _
    _ ≤ (Real.exp 1 ^ 4) ^ 256 := by gcongr
    _ = Real.exp 1024 := by
      rw [← pow_mul, ← Real.exp_nat_mul]
      norm_num

theorem exp_le_half_of_large {u : Nat} (hu : 2 ^ 1084 ≤ u) :
    Real.exp (-((u : ℝ) / 2 ^ 1074)) * 2 ^ 1074 ≤ 1 / 2 := by
  have hx : (1024 : ℝ) ≤ u / 2 ^ 1074 := by
    have hcast : (2 : ℝ) ^ (10 + 1074) ≤ u := by
      simpa only [Nat.cast_pow, Nat.cast_ofNat] using (Nat.cast_le (α := ℝ)).mpr hu
    have hten : (2 : ℝ) ^ 10 = 1024 := by norm_num
    rw [pow_add, hten] at hcast
    rwa [le_div_iff₀ (by positivity)]
  have hexp : (2 : ℝ) ^ 1075 ≤ Real.exp (u / 2 ^ 1074) := two_pow_le_exp.trans (Real.exp_le_exp.mpr hx)
  rw [pow_succ] at hexp
  rwa [Real.exp_neg, inv_mul_le_iff₀ (Real.exp_pos _), mul_one_div, le_div_iff₀ two_pos]

/-- From `x = 1024` on, 0 is the nearest to the exponential. -/
theorem expOfNegative_nearest_of_large {u : Nat} (hu : 2 ^ 1084 ≤ u) (v : Nat) :
    |(expOfNegative u : ℝ) - Real.exp (-((u : ℝ) / 2 ^ 1074)) * 2 ^ 1074| ≤
      |(v : ℝ) - Real.exp (-((u : ℝ) / 2 ^ 1074)) * 2 ^ 1074| := by
  have hhalf := exp_le_half_of_large hu
  have hpos : 0 ≤ Real.exp (-((u : ℝ) / 2 ^ 1074)) * 2 ^ 1074 := by positivity
  generalize Real.exp (-((u : ℝ) / 2 ^ 1074)) * 2 ^ 1074 = e at *
  rw [expOfNegative_of_large hu, Nat.cast_zero, zero_sub, abs_neg, abs_of_nonneg hpos]
  rcases Nat.eq_zero_or_pos v with rfl | hv
  · rw [Nat.cast_zero, zero_sub, abs_neg, abs_of_nonneg hpos]
  · have hone : (1 : ℝ) ≤ v := by exact_mod_cast hv
    rw [abs_of_nonneg (by linarith)]
    linarith

/-- Settles O35: the bracket by `expBracket_holds`, the rounding by the ends of the bracket below 1024 and by the
size of the exponential from there on. -/
theorem exponentialIsCorrectlyRounded : Obligations.ExponentialIsCorrectlyRounded := by
  intro u
  obtain ⟨hrep, hle⟩ := expOfNegative_representable_le_one u
  refine ⟨⟨rfl, hrep, hle.trans_lt (pow_lt_pow_right₀ one_lt_two (by decide))⟩, fun hu => ?_,
    fun hdecided v hv => ?_⟩
  · obtain ⟨hlo, hhi⟩ := expBracket_holds hu
    exact ⟨(div_le_iff₀ (by positivity)).mpr hlo, (le_div_iff₀ (by positivity)).mpr hhi⟩
  · have hnear : |(expOfNegative u : ℝ) - Real.exp (-((u : ℝ) / 2 ^ 1074)) * 2 ^ 1074| ≤
        |(v : ℝ) - Real.exp (-((u : ℝ) / 2 ^ 1074)) * 2 ^ 1074| := by
      rcases Nat.lt_or_ge u (2 ^ 1084) with hu | hu
      · exact expOfNegative_nearest_of_agreement hu (hdecided.resolve_left (Nat.not_le.mpr hu)) hv
      · exact expOfNegative_nearest_of_large hu v
    have hdiv : ∀ r : ℝ, r / 2 ^ 1074 - Real.exp (-((u : ℝ) / 2 ^ 1074)) =
        (r - Real.exp (-((u : ℝ) / 2 ^ 1074)) * 2 ^ 1074) / 2 ^ 1074 := by
      intro r
      field_simp
    rw [hdiv, hdiv, abs_div, abs_div]
    gcongr

end Sys2Proof.Machine
end

section
/-! PROOF. What a read and a write of the register port do, offset by offset (10_state.md R16 to R28,
20_memory.md R37 to R43). -/

namespace Sys2Proof.Machine

/-! ### The words registers read as, bit by bit (10_state.md R18 to R20) -/

theorem ctrlWord_getLsbD (e : Bool) (i : Nat) :
    (ctrlWord e).getLsbD i = if i = 0 then e else false := by
  simp only [ctrlWord, BitVec.getLsbD_append, BitVec.getLsbD_ofBool, BitVec.getLsbD_zero]
  cases i <;> simp

theorem eventsWord_getLsbD (d o : Bool) (i : Nat) :
    (eventsWord d o).getLsbD i = if i = 0 then d else if i = 1 then o else false := by
  simp only [eventsWord, BitVec.getLsbD_append, BitVec.getLsbD_ofBool, BitVec.getLsbD_zero]
  match i with
  | 0 => simp
  | 1 => simp
  | i + 2 => simp

theorem statusWord_getLsbD (b d k g : Bool) (r : Byte) (i : Nat) :
    (statusWord b d k g r).getLsbD i =
      if i < 8 then [b, d, k, g].getD i false else if i < 16 then r.getLsbD (i - 8) else false := by
  simp only [statusWord, BitVec.getLsbD_append, BitVec.getLsbD_ofBool, BitVec.getLsbD_zero]
  rcases Nat.lt_or_ge i 8 with h | h
  · interval_cases i <;> simp
  · obtain ⟨j, rfl⟩ := Nat.exists_eq_add_of_le' h
    simp [show j + 8 < 16 ↔ j < 8 by omega]

theorem ctrlWord_reserved (e : Bool) : (ctrlWord e).extractLsb' 1 31 = 0#31 := by
  ext i hi
  simp [← BitVec.getLsbD_eq_getElem, ctrlWord_getLsbD]

theorem eventsWord_reserved (d o : Bool) : (eventsWord d o).extractLsb' 2 30 = 0#30 := by
  ext i hi
  simp [← BitVec.getLsbD_eq_getElem, eventsWord_getLsbD, show 2 + i ≠ 1 by omega]

theorem eventsWord_lt (d o : Bool) : (eventsWord d o).toNat < 4 := by
  cases d <;> cases o <;> decide

theorem statusWord_result (b d k g : Bool) (r : Byte) :
    (statusWord b d k g r).extractLsb' 8 8 = r := by
  ext i hi
  simp [← BitVec.getLsbD_eq_getElem, statusWord_getLsbD, hi, show 8 + i < 16 by omega]

theorem statusWord_reserved (b d k g : Bool) (r : Byte) :
    (statusWord b d k g r).extractLsb' 4 4 = 0#4 ∧ (statusWord b d k g r).extractLsb' 16 16 = 0#16 := by
  constructor <;> ext i hi
  · simp [← BitVec.getLsbD_eq_getElem, statusWord_getLsbD, show 4 + i < 8 by omega]
  · simp [← BitVec.getLsbD_eq_getElem, statusWord_getLsbD, show ¬16 + i < 8 by omega]

/-- Write-one-to-clear on the flags is bitwise on the word (10_state.md R20). -/
theorem eventsWord_clearedBy (d o : Bool) (v : Word) :
    eventsWord (clearedBy d (v.getLsbD 0)) (clearedBy o (v.getLsbD 1)) = eventsWord d o &&& ~~~v := by
  apply BitVec.eq_of_getLsbD_eq
  intro i hi
  simp only [BitVec.getLsbD_and, BitVec.getLsbD_not, eventsWord_getLsbD, clearedBy]
  split_ifs <;> simp_all

/-! ### The register at an offset (10_state.md section 2) -/

/-- The word before the kernel and the words past it name no register. -/
theorem Reg.ofOffset_reserved {off : BitVec 8} (h : off.toNat = 0x3C ∨ 0xA4 ≤ off.toNat) :
    Reg.ofOffset off = none := by
  have hk : ¬(0x40 ≤ off.toNat ∧ off.toNat < 0x40 + 4 * 25 ∧ off.toNat % 4 = 0) := by omega
  unfold Reg.ofOffset
  split
  case h_16 => exact if_neg hk
  all_goals omega

theorem Reg.ofOffset_kernel {off : BitVec 8} {k : Nat} (hk : k < 25) (h : off.toNat = 0x40 + 4 * k) :
    Reg.ofOffset off = some (.kernel k) := by
  have hrange : 0x40 ≤ off.toNat ∧ off.toNat < 0x40 + 4 * 25 ∧ off.toNat % 4 = 0 := by omega
  unfold Reg.ofOffset
  split
  case h_16 => rw [if_pos hrange, h, Nat.add_sub_cancel_left, Nat.mul_div_cancel_left k (by decide)]
  all_goals omega

/-- A named register stands at a word offset. -/
theorem Reg.offset_toNat_mod_four (r : Reg) : r.offset.toNat % 4 = 0 := by
  cases r
  case kernel k =>
    rw [Reg.offset, BitVec.toNat_ofNat]
    omega
  all_goals rfl

/-! ### Reads (20_memory.md R37, R39) -/

/-- The registers do not depend on the schedule. -/
@[simp] theorem State.readReg_turns (s : State) (turns : List Turn) (r : Reg) :
    ({ s with turns := turns } : State).readReg r = s.readReg r := by
  cases r <;> rfl

theorem State.regRead_of_reserved {s : State} {off : BitVec 8} (hoff : off.toNat % 4 = 0)
    (hr : Reg.ofOffset off = none) : s.regRead off 0xF#4 = { s with reply := .word 0#32 } := by
  simp [State.regRead, legalAccess_iff.mpr ⟨hoff, rfl⟩, hr]

theorem State.regRead_of_idle {s : State} {off : BitVec 8} {r : Reg} (hb : s.busy = false)
    (hoff : off.toNat % 4 = 0) (hr : Reg.ofOffset off = some r) :
    s.regRead off 0xF#4 = { s with reply := .word (s.readReg r) } := by
  simp [State.regRead, legalAccess_iff.mpr ⟨hoff, rfl⟩, hr, hb]

/-- `CMD` reads 0, whatever runs (10_state.md R21). -/
theorem State.regRead_cmd_reply (s : State) : (s.regRead 0x10#8 0xF#4).reply = .word 0#32 := by
  have hr : Reg.ofOffset 0x10#8 = some .cmd := rfl
  cases hb : s.busy with
  | false => rw [State.regRead_of_idle hb rfl hr]; rfl
  | true => simp [State.regRead, legalAccess, hr, hb, State.readRegBusy, State.readReg]

theorem step_of_regRead {s : State} {off : BitVec 8} {enables : BitVec 4} {rest : List Turn}
    (h : s.turns = .host (.regRead off enables) :: rest) :
    step s = .next (({ s with turns := rest } : State).regRead off enables) :=
  step_of_cons h

/-- Settles O42, by `State.regRead_eq` and, on an idle block, `State.regRead_of_idle`. -/
theorem registerReadsHaveNoSideEffect : Obligations.RegisterReadsHaveNoSideEffect := by
  intro s off enables rest h
  refine ⟨_, step_of_regRead h, State.regRead_eq _ off enables, ?_⟩
  rintro hb hoff rfl r hr
  rw [State.regRead_of_idle (s := { s with turns := rest }) hb hoff hr]
  exact ⟨by rw [State.readReg_turns], rfl⟩

/-- What an idle block answers at a word offset: 0 where no register stands (10_state.md R16). -/
def State.idleWord (s : State) (off : BitVec 8) : Word := (Reg.ofOffset off).elim 0#32 s.readReg

theorem State.idleWord_of_named {s : State} {off : BitVec 8} {r : Reg} (h : Reg.ofOffset off = some r) :
    s.idleWord off = s.readReg r := by
  rw [State.idleWord, h, Option.elim_some]

theorem State.idleWord_of_reserved {s : State} {off : BitVec 8}
    (h : off.toNat = 0x3C ∨ 0xA4 ≤ off.toNat) : s.idleWord off = 0#32 := by
  rw [State.idleWord, Reg.ofOffset_reserved h, Option.elim_none]

theorem step_of_idle_regRead {s : State} {off : BitVec 8} {rest : List Turn} (hb : s.busy = false)
    (hoff : off.toNat % 4 = 0) (h : s.turns = .host (.regRead off 0xF#4) :: rest) :
    step s = .next { s with turns := rest, reply := .word (s.idleWord off) } := by
  rw [step_of_regRead h]
  cases hr : Reg.ofOffset off with
  | none => rw [State.regRead_of_reserved hoff hr, State.idleWord, hr, Option.elim_none]
  | some r =>
    rw [State.regRead_of_idle (s := { s with turns := rest }) hb hoff hr, State.readReg_turns,
      State.idleWord_of_named hr]

/-- Settles O57: `State.idleWord` at each offset is the register there, whose word the lemmas above read bit by
bit. -/
theorem idleReadsFollowTheRegisterMap : Obligations.IdleReadsFollowTheRegisterMap := by
  intro s off rest hb hoff h
  refine ⟨s.idleWord off, step_of_idle_regRead hb hoff h, ?_, ?_, ?_, ?_, ?_, ?_, ?_, ?_, ?_, ?_, ?_, ?_,
    ?_, ?_, ?_, ?_, fun k hk hoffk => ?_, fun hhigh => State.idleWord_of_reserved (.inr hhigh)⟩
  case refine_17 =>
    rw [State.idleWord_of_named (Reg.ofOffset_kernel hk hoffk)]
    simp [State.readReg, hk]
  all_goals rintro rfl
  case refine_16 => exact State.idleWord_of_reserved (.inl rfl)
  · rfl
  · exact ⟨ctrlWord_getLsbD s.irqEn 0, ctrlWord_reserved _⟩
  · have hv : s.idleWord 0x08#8 = statusWord false s.dirty s.kernelValid s.geomValid s.result :=
      congrArg (statusWord · s.dirty s.kernelValid s.geomValid s.result) hb
    rw [hv]
    exact ⟨statusWord_getLsbD .., statusWord_getLsbD .., statusWord_getLsbD .., statusWord_getLsbD ..,
      (statusWord_reserved ..).1, statusWord_result .., (statusWord_reserved ..).2⟩
  · exact ⟨eventsWord_getLsbD s.done s.overrun 0, eventsWord_getLsbD s.done s.overrun 1,
      eventsWord_reserved _ _⟩
  all_goals rfl

/-! ### Writes (10_state.md R16, 20_memory.md R37) -/

theorem step_of_regWrite {s : State} {off : BitVec 8} {v : Word} {enables : BitVec 4} {rest : List Turn}
    (h : s.turns = .host (.regWrite off v enables) :: rest) :
    step s = .next (({ s with turns := rest } : State).regWrite off v enables) :=
  step_of_cons h

/-- A legal write outside reset writes the register named by its offset. -/
theorem State.regWrite_of_named {s : State} {off : BitVec 8} {r : Reg} (v : Word)
    (hreset : s.inReset = false) (hoff : off.toNat % 4 = 0) (hr : Reg.ofOffset off = some r) :
    s.regWrite off v 0xF#4 = { s.writeReg v r with reply := .done } := by
  simp [State.regWrite, legalAccess_iff.mpr ⟨hoff, rfl⟩, hreset, hr]

/-- A `CMD` write, accepted or dropped, leaves the block busy and reaches the latch, `OVERRUN` and the note of
log 9 alone (20_memory.md R41, R42). -/
theorem State.writeCmd_eq (s : State) (v : Word) :
    s.writeCmd v = { s with
      busy := true
      latch := (s.writeCmd v).latch
      overrun := (s.writeCmd v).overrun
      disturbed := (s.writeCmd v).disturbed } := by
  cases hb : s.busy <;> simp [State.writeCmd, State.accept, hb]

/-- A register write reaches the host's registers, `BUSY` and the latch alone, with the note of log 9. -/
theorem State.writeReg_eq (s : State) (v : Word) (r : Reg) :
    s.writeReg v r = { s with
      irqEn := (s.writeReg v r).irqEn
      busy := (s.writeReg v r).busy
      done := (s.writeReg v r).done
      overrun := (s.writeReg v r).overrun
      arg0 := (s.writeReg v r).arg0
      arg1 := (s.writeReg v r).arg1
      arg2 := (s.writeReg v r).arg2
      latch := (s.writeReg v r).latch
      disturbed := (s.writeReg v r).disturbed } := by
  cases r
  case cmd => rw [State.writeReg, State.writeCmd_eq]
  all_goals rfl

/-- Settles O43: on the word, the write-one-to-clear rule is `eventsWord_clearedBy`. -/
theorem eventsClearByWritingOnes : Obligations.EventsClearByWritingOnes := by
  intro s v rest hreset h
  refine ⟨_, step_of_regWrite h, ?_⟩
  rw [State.regWrite_of_named (s := { s with turns := rest }) (r := .events) v hreset rfl rfl]
  exact ⟨eventsWord_clearedBy s.done s.overrun v, eventsWord_lt _ _, rfl⟩

/-- The registers that a write can change (10_state.md section 2, column "access"). -/
def Reg.writable : Reg → Bool
  | .ctrl | .events | .cmd | .arg0 | .arg1 | .arg2 => true
  | _ => false

theorem State.writeReg_of_readOnly {r : Reg} (h : r.writable = false) (s : State) (v : Word) :
    s.writeReg v r = s := by
  cases r
  case ctrl | events | cmd | arg0 | arg1 | arg2 => cases h
  all_goals rfl

/-- Settles O41: a reserved offset names no register, and the read-only ones none that is writable. -/
theorem reservedAndReadOnlyOffsetsIgnoreWrites : Obligations.ReservedAndReadOnlyOffsetsIgnoreWrites := by
  intro s off v rest hoff
  refine ⟨fun hwhich h => ⟨_, step_of_regRead h, ?_, State.regRead_eq _ off _⟩, fun hwhich h => ?_⟩
  · have hcases : (off.toNat = 0x3C ∨ 0xA4 ≤ off.toNat) ∨ off.toNat = 0x10 := by omega
    rcases hcases with hnone | hcmd
    · rw [State.regRead_of_reserved hoff (Reg.ofOffset_reserved hnone)]
    · obtain rfl : off = 0x10#8 := BitVec.eq_of_toNat_eq hcmd
      exact State.regRead_cmd_reply _
  · rw [step_of_regWrite h]
    rcases ({ s with turns := rest } : State).regWrite_cases off v 0xF#4 with
      ⟨hill, -⟩ | ⟨-, -, hc⟩ | ⟨-, -, r, rfl, hc⟩
    · exact absurd (legalAccess_iff.mpr ⟨hoff, rfl⟩) (by simp [hill])
    · rw [hc]
    · have hro : r.writable = false := by
        cases r
        case ctrl | events | cmd | arg0 | arg1 | arg2 => exact absurd hwhich (by decide)
        all_goals rfl
      rw [hc, State.writeReg_of_readOnly hro]

end Sys2Proof.Machine
end

section
/-! PROOF. Every state of a run is legal (10_state.md R33, 70_reset_and_hazards.md R118): what each change of the
engine, of the host and of reset keeps, then one case a turn. -/

namespace Sys2Proof.Machine

/-! ### The reset state (10_state.md R36) -/

/-- Settles O47: each register's reset value is its field of `State.reset`. -/
theorem resetValues : Obligations.ResetValues :=
  ⟨rfl, rfl, rfl, rfl, rfl, rfl, rfl, rfl, rfl, rfl, rfl, rfl, rfl, rfl,
    fun _ hk => List.getD_replicate _ hk, rfl⟩

/-- Settles O50, item by item: the kernel is stale and zero, and no geometry is set. -/
theorem resetIsLegal : Obligations.ResetIsLegal where
  ksize_legal := by decide
  kernelKsize_legal := by decide
  sigma_legal := by decide
  clean_current := fun h => absurd h (by decide)
  invalid_empty := fun _ => ⟨rfl, rfl, rfl⟩
  valid_ksize := fun h => absurd h (by decide)
  geometry_legal := fun h => absurd h (by decide)
  geometry_unset := fun _ => ⟨rfl, rfl, rfl⟩
  result_produced := by decide
  memory_canonical := rfl
  memory_inRange := rfl
  reset_held := fun h => absurd h (by decide)

/-! ### Changes outside the kernel and the geometry -/

/-- The invariant speaks of the parameters, the kernel, the geometry, the result code and frame memory alone,
but for the reset it holds. -/
theorem LegalState.of_same {s t : State} (h : LegalState s) (hparams : SameParameters s t)
    (hdirty : t.dirty = s.dirty) (hkernel : SameKernel s t) (hgeom : SameGeometry s t)
    (hresult : t.result.toNat ≤ 6) (hwf : t.mem.wf = true) (hrange : t.mem.inRange = true)
    (hheld : t.inReset = false ∨ t.resetBlock = t) : LegalState t := by
  obtain ⟨hks, hsigma⟩ := hparams
  obtain ⟨hk, hkk, hkv, -⟩ := hkernel
  obtain ⟨hw, hh, hst, hgv⟩ := hgeom
  exact
    { ksize_legal := hks ▸ h.ksize_legal
      kernelKsize_legal := hkk ▸ h.kernelKsize_legal
      sigma_legal := hsigma ▸ h.sigma_legal
      clean_current := by rw [hdirty, hkv, hkk, hks, hk, hsigma]; exact h.clean_current
      invalid_empty := by rw [hdirty, hkv, hkk, hk]; exact h.invalid_empty
      valid_ksize := by rw [hkv, hkk]; exact h.valid_ksize
      geometry_legal := by rw [hgv, hw, hh, hst]; exact h.geometry_legal
      geometry_unset := by rw [hgv, hw, hh, hst]; exact h.geometry_unset
      result_produced := hresult
      memory_canonical := hwf
      memory_inRange := hrange
      reset_held := fun hr => hheld.resolve_left (by simp [hr]) }

/-- Frame memory, the schedule, the answer, the draw counter and the environment are not the block's: the reset
state allows any of them. -/
theorem LegalState.outside {s : State} (h : LegalState s) (turns : List Turn) {mem : Memory}
    (hwf : mem.wf = true) (hrange : mem.inRange = true) (reply : Reply) (draws : Nat) (env : Env) :
    LegalState { s with turns := turns, mem := mem, reply := reply, draws := draws, env := env } := by
  refine h.of_same ⟨rfl, rfl⟩ rfl ⟨rfl, rfl, rfl, rfl⟩ ⟨rfl, rfl, rfl, rfl⟩ h.result_produced hwf hrange ?_
  refine (Bool.eq_false_or_eq_true s.inReset).symm.imp_right fun hr => ?_
  have hheld := h.reset_held hr
  rw [← hheld]
  rfl

theorem LegalState.answered {s : State} (h : LegalState s) (reply : Reply) (draws : Nat) :
    LegalState { s with reply := reply, draws := draws } :=
  h.outside s.turns h.memory_canonical h.memory_inRange reply draws s.env

theorem LegalState.scheduled {s : State} (h : LegalState s) (turns : List Turn) :
    LegalState { s with turns := turns } :=
  h.outside turns h.memory_canonical h.memory_inRange s.reply s.draws s.env

/-- While reset is asserted the block is idle and no write of the host is noted (R118). -/
theorem LegalState.idle_of_inReset {s : State} (h : LegalState s) (hr : s.inReset = true) :
    s.busy = false ∧ s.disturbed = false :=
  ⟨(congrArg State.busy (h.reset_held hr)).symm, (congrArg State.disturbed (h.reset_held hr)).symm⟩

/-! ### Commands -/

/-- The codes that completions give (60_exceptions.md R101). -/
theorem ResultCode.code_toNat_le {c : ResultCode} (h : c ≠ .allocation) : c.code.toNat ≤ 6 := by
  cases c
  case allocation => exact absurd rfl h
  all_goals decide

theorem LegalState.finish {s : State} (h : LegalState s) (hr : s.inReset = false) {c : ResultCode}
    (hc : c ≠ .allocation) : LegalState (s.finish c) :=
  h.of_same ⟨rfl, rfl⟩ rfl ⟨rfl, rfl, rfl, rfl⟩ ⟨rfl, rfl, rfl, rfl⟩ (ResultCode.code_toNat_le hc)
    h.memory_canonical h.memory_inRange (.inl hr)

/-- A `CONFIGURE` that stores a change makes the kernel stale, so the invariant asks nothing of it (R75). -/
theorem LegalState.storeParameters {s : State} (h : LegalState s) (hr : s.inReset = false) {ks : Nat}
    {sb : Word} (hks : ks ≤ 2) (hsb : sigmaOk sb = true) : LegalState (s.storeParameters ks sb) where
  ksize_legal := by
    intro heq
    have hstored : ks % 2 ^ 2 = 3 := by simpa using congrArg BitVec.toNat heq
    omega
  kernelKsize_legal := h.kernelKsize_legal
  sigma_legal := sigmaOk_iff.mp hsb
  clean_current := by
    intro hclean
    obtain ⟨hdirty, hsame⟩ : s.dirty = false ∧ s.parametersDiffer ks sb = false :=
      Bool.or_eq_false_iff.mp hclean
    obtain ⟨rfl, rfl⟩ : ks = s.ksize.toNat ∧ sb = s.sigma := by
      simpa [State.parametersDiffer] using hsame
    simpa using h.clean_current hdirty
  invalid_empty := by
    intro hinvalid
    obtain ⟨hdirty, hempty⟩ := h.invalid_empty hinvalid
    exact ⟨by simp [State.storeParameters, hdirty], hempty⟩
  valid_ksize := h.valid_ksize
  geometry_legal := h.geometry_legal
  geometry_unset := h.geometry_unset
  result_produced := h.result_produced
  memory_canonical := h.memory_canonical
  memory_inRange := h.memory_inRange
  reset_held := fun ht => absurd (ht.symm.trans hr) (by decide)

/-- The geometry a `SET_GEOMETRY` stores fits its registers (R85). -/
theorem LegalState.storeGeometry {s : State} (hl : LegalState s) (hr : s.inReset = false) {w h : Nat}
    (hw : 1 ≤ w) (hw' : w ≤ 0xFFFF) (hh : 1 ≤ h) (hh' : h ≤ 0xFFFF) :
    LegalState (s.storeGeometry w h (3 * w)) where
  ksize_legal := hl.ksize_legal
  kernelKsize_legal := hl.kernelKsize_legal
  sigma_legal := hl.sigma_legal
  clean_current := hl.clean_current
  invalid_empty := hl.invalid_empty
  valid_ksize := hl.valid_ksize
  geometry_legal := by
    intro _
    simp only [State.storeGeometry_width, State.storeGeometry_height, State.storeGeometry_stride,
      BitVec.toNat_ofNat]
    rw [Nat.mod_eq_of_lt (a := w) (by omega), Nat.mod_eq_of_lt (a := h) (by omega),
      Nat.mod_eq_of_lt (a := 3 * w) (by omega)]
    exact ⟨hw, hh, rfl⟩
  geometry_unset := fun h => absurd h (by simp)
  result_produced := hl.result_produced
  memory_canonical := hl.memory_canonical
  memory_inRange := hl.memory_inRange
  reset_held := fun ht => absurd (ht.symm.trans hr) (by decide)

/-- A recompute for a kernel size that is not 0 makes the kernel current (R78, R82). -/
theorem LegalState.recompute {s : State} (h : LegalState s) (hr : s.inReset = false)
    (hks : s.ksize ≠ 0#2) : LegalState s.recompute where
  ksize_legal := h.ksize_legal
  kernelKsize_legal := h.ksize_legal
  sigma_legal := h.sigma_legal
  clean_current := fun _ => ⟨rfl, rfl, rfl⟩
  invalid_empty := fun h => absurd h (by simp)
  valid_ksize := fun _ => hks
  geometry_legal := h.geometry_legal
  geometry_unset := h.geometry_unset
  result_produced := h.result_produced
  memory_canonical := h.memory_canonical
  memory_inRange := h.memory_inRange
  reset_held := fun ht => absurd (ht.symm.trans hr) (by decide)

theorem LegalState.ensureKernel {s : State} (h : LegalState s) (hr : s.inReset = false)
    (hks : s.ksize ≠ 0#2) : LegalState s.ensureKernel := by
  rcases s.ensureKernel_cases with ⟨-, he⟩ | ⟨-, he⟩ <;> rw [he]
  · exact h.recompute hr hks
  · exact h

theorem LegalState.settle {s : State} (h : LegalState s) : LegalState s.settle := by
  rw [State.settle_eq]
  exact h.outside s.turns (State.settle_wf h.memory_canonical) (State.settle_inRange h.memory_inRange)
    s.reply s.settle.draws s.env

/-- A convolution writes frame memory and its completion (R93). -/
theorem LegalState.convolve {s : State} (h : LegalState s) (hr : s.inReset = false)
    (htop : s.baseOperand + s.frameBytes ≤ Config.memorySize) : LegalState s.convolve := by
  have hresult : s.convolve.result.toNat ≤ 6 := by
    rw [State.convolve_result]
    exact ResultCode.code_toNat_le (by split <;> decide)
  rw [State.convolve_eq] at hresult ⊢
  exact h.of_same ⟨rfl, rfl⟩ rfl ⟨rfl, rfl, rfl, rfl⟩ ⟨rfl, rfl, rfl, rfl⟩ hresult
    (State.convolved_wf h.memory_canonical)
    (State.convolved_inRange h.memory_inRange h.geometryOk htop)
    (.inl hr)

/-- The engine's turn keeps the state legal: in reset it is idle, else the command it completes does. -/
theorem LegalState.afterCommand {s : State} (h : LegalState s) : LegalState s.afterCommand := by
  cases hr : s.inReset with
  | true => rwa [State.afterCommand_of_idle (h.idle_of_inReset hr).1]
  | false =>
    rcases s.afterCommand_cases with ⟨-, hc⟩ | ⟨-, c, hok, hc⟩ | ⟨-, ks, -, hks, hsigma, hc⟩ |
      ⟨-, -, hw, hw', hh, hh', hst, hc⟩ | ⟨-, -, -, c, hok, hc⟩ | ⟨-, -, hacc, hc⟩ <;> rw [hc]
    · exact h
    · exact h.finish hr hok
    · exact (h.storeParameters hr hks hsigma).finish hr (by decide)
    · rw [hst]
      exact (h.storeGeometry hr hw hw' hh hh').finish hr (by decide)
    · exact h.settle.finish (by simpa using hr) hok
    · obtain ⟨hks, -, -, htop⟩ := hacc
      exact (h.ensureKernel hr hks).convolve (by simpa using hr)
        (by rw [State.ensureKernel_baseOperand, State.ensureKernel_frameBytes]; exact htop)

/-! ### The host -/

theorem LegalState.writeReg {s : State} (h : LegalState s) (hr : s.inReset = false) (v : Word) (r : Reg) :
    LegalState (s.writeReg v r) := by
  rw [State.writeReg_eq]
  exact h.of_same ⟨rfl, rfl⟩ rfl ⟨rfl, rfl, rfl, rfl⟩ ⟨rfl, rfl, rfl, rfl⟩ h.result_produced
    h.memory_canonical h.memory_inRange (.inl hr)

/-- A byte the host writes exists; in reset no command runs, so the write breaks no duty. -/
theorem LegalState.hostWrite {s : State} (h : LegalState s) (addr : Word) (v : Byte) :
    LegalState (s.hostWrite addr v) := by
  have hwf := Memory.write_wf h.memory_canonical addr.toNat v
  have hrange := Memory.write_inRange h.memory_inRange (a := addr.toNat) addr.isLt v
  rcases s.hostWrite_cases addr v with ⟨-, hc⟩ | ⟨-, hc⟩ <;> rw [hc]
  · exact h.answered .done s.draws
  · rcases Bool.eq_false_or_eq_true s.inReset with hr | hr
    · obtain ⟨hb, hd⟩ := h.idle_of_inReset hr
      have hquiet : (s.disturbed || s.borrowed addr.toNat) = s.disturbed := by
        simp [State.borrowed, State.frameRunning, hb, hd]
      rw [hquiet]
      exact h.outside s.turns hwf hrange .done s.draws s.env
    · exact h.of_same ⟨rfl, rfl⟩ rfl ⟨rfl, rfl, rfl, rfl⟩ ⟨rfl, rfl, rfl, rfl⟩ h.result_produced
        hwf hrange (.inl hr)

theorem LegalState.hostAccess {s : State} (h : LegalState s) (access : HostAccess) :
    LegalState (s.hostAccess access) := by
  cases access with
  | regRead off enables =>
    rw [State.hostAccess, State.regRead_eq]
    exact h.answered _ _
  | regWrite off v enables =>
    rw [State.hostAccess]
    rcases s.regWrite_cases off v enables with ⟨-, hc⟩ | ⟨-, -, hc⟩ | ⟨-, hr, r, -, hc⟩ <;> rw [hc]
    · exact h.answered _ _
    · exact h.answered _ _
    · exact (h.writeReg hr v r).answered _ _
  | memRead addr =>
    rw [State.hostAccess, State.hostRead_eq]
    exact h.answered _ _
  | memWrite addr v => exact h.hostWrite addr v

/-! ### Reset -/

theorem LegalState.abandonFrame {s : State} (h : LegalState s) :
    s.abandonFrame.mem.wf = true ∧ s.abandonFrame.mem.inRange = true := by
  rcases s.abandonFrame_cases with ⟨-, -, -, hc⟩ | ⟨-, -, -, hc⟩ | ⟨-, hc⟩ <;> rw [hc]
  · exact ⟨State.freeBytes_wf h.memory_canonical _,
      State.freeBytes_inRange h.memory_inRange fun a ha => State.unspecifiedBytes_lt ha⟩
  · exact ⟨State.settle_wf h.memory_canonical, State.settle_inRange h.memory_inRange⟩
  · exact ⟨h.memory_canonical, h.memory_inRange⟩

/-- Over any frame memory in its form the reset state is legal, with the reset asserted too. -/
theorem LegalState.resetBlock {s : State} (hwf : s.mem.wf = true) (hrange : s.mem.inRange = true) :
    LegalState s.resetBlock :=
  resetIsLegal.of_same ⟨rfl, rfl⟩ rfl ⟨rfl, rfl, rfl, rfl⟩ ⟨rfl, rfl, rfl, rfl⟩
    resetIsLegal.result_produced hwf hrange (.inr rfl)

theorem LegalState.released {s : State} (h : LegalState s) : LegalState { s with inReset := false } :=
  h.of_same ⟨rfl, rfl⟩ rfl ⟨rfl, rfl, rfl, rfl⟩ ⟨rfl, rfl, rfl, rfl⟩ h.result_produced
    h.memory_canonical h.memory_inRange (.inl rfl)

/-! ### One step -/

/-- Settles O51, turn by turn, each turn from the state with it taken off the schedule. -/
theorem everyStepKeepsTheStateLegal : Obligations.EveryStepKeepsTheStateLegal := by
  intro s t h hstep
  rcases step_cases hstep with ⟨-, rfl⟩ | ⟨access, rest, -, rfl⟩ | ⟨rest, -, rfl⟩ | ⟨rest, -, rfl⟩ |
    ⟨rest, -, rfl⟩
  · exact h.afterCommand
  · exact (h.scheduled rest).hostAccess access
  · exact (h.scheduled rest).afterCommand
  · obtain ⟨hwf, hrange⟩ := (h.scheduled rest).abandonFrame
    exact LegalState.resetBlock hwf hrange
  · exact (h.scheduled rest).released

end Sys2Proof.Machine
end

section
/-! PROOF. What changes a register or a flag (10_state.md R18 to R31, R118): the engine's turn group by group, a
register write field by field, and the one inversion of a step from which both tables follow. -/

namespace Sys2Proof.Machine

/-! ### The engine's turn -/

/-- An engine's turn leaves the host's side alone (20_memory.md R43). -/
theorem State.afterCommand_hostSide (s : State) : SameHostSide s s.afterCommand := by
  rcases s.afterCommand_cases with ⟨-, hc⟩ | ⟨-, c, -, hc⟩ | ⟨-, ks, -, -, -, hc⟩ | ⟨-, -, -, -, -, -, -, hc⟩ |
    ⟨-, -, -, c, -, hc⟩ | ⟨-, -, -, hc⟩ <;> rw [hc] <;> simp [SameHostSide]

/-- `DONE` is set by a completion, and no engine's turn clears it (10_state.md R31). -/
theorem State.afterCommand_done_eq (s : State) : s.afterCommand.done = (s.busy || s.done) := by
  cases hb : s.busy with
  | false => simp [State.afterCommand_of_idle hb]
  | true => simp [State.afterCommand_done hb]

/-- `KSIZE` and `SIGMA` are `CONFIGURE`'s, where it succeeds (10_state.md R23, R24). -/
theorem State.afterCommand_parameters (s : State) : SameParameters s s.afterCommand ∨
    (s.busy = true ∧ ∃ ks, decode s.latch.cmd = .ok (.configure ks) ∧ s.afterCommand.result = 0x00#8) := by
  rcases s.afterCommand_cases with ⟨-, hc⟩ | ⟨-, c, -, hc⟩ | ⟨hb, ks, hd, -, -, hc⟩ |
    ⟨-, -, -, -, -, -, -, hc⟩ | ⟨-, -, -, c, -, hc⟩ | ⟨-, -, -, hc⟩ <;> rw [hc]
  case inr.inr.inl => exact .inr ⟨hb, ks, hd, rfl⟩
  all_goals exact .inl ⟨by simp, by simp⟩

/-- The geometry is `SET_GEOMETRY`'s, where it succeeds (10_state.md R25). -/
theorem State.afterCommand_geometry (s : State) : SameGeometry s s.afterCommand ∨
    (s.busy = true ∧ decode s.latch.cmd = .ok .setGeometry ∧ s.afterCommand.result = 0x00#8 ∧
      s.afterCommand.geomValid = true) := by
  rcases s.afterCommand_cases with ⟨-, hc⟩ | ⟨-, c, -, hc⟩ | ⟨-, ks, -, -, -, hc⟩ |
    ⟨hb, hd, -, -, -, -, -, hc⟩ | ⟨-, -, -, c, -, hc⟩ | ⟨-, -, -, hc⟩ <;> rw [hc]
  case inr.inr.inr.inl => exact .inr ⟨hb, hd, rfl, rfl⟩
  all_goals exact .inl ⟨by simp, by simp, by simp, by simp⟩

/-- The kernel and a clear of `DIRTY` are the recompute's, in a `PROCESS_FRAME` that finds it set
(10_state.md R26 to R28). -/
theorem State.afterCommand_kernel (s : State) :
    (SameKernel s s.afterCommand ∧ (s.dirty = true → s.afterCommand.dirty = true)) ∨
    (s.busy = true ∧ decode s.latch.cmd = .ok .processFrame ∧ s.dirty = true ∧
      s.afterCommand.kernel = kernelFor s.ksize s.sigma ∧ s.afterCommand.kernelValid = true ∧
      s.afterCommand.recomputeCount = s.recomputeCount + 1#32) := by
  rcases s.afterCommand_cases with ⟨-, hc⟩ | ⟨-, c, -, hc⟩ | ⟨-, ks, -, -, -, hc⟩ |
    ⟨-, -, -, -, -, -, -, hc⟩ | ⟨-, -, -, c, -, hc⟩ | ⟨hb, hd, -, hc⟩ <;> rw [hc]
  case inr.inr.inr.inr.inr =>
    rcases s.ensureKernel_cases with ⟨hdirty, he⟩ | ⟨hclean, he⟩ <;> rw [he]
    · exact .inr ⟨hb, hd, hdirty, by simp, by simp, by simp⟩
    · exact .inl ⟨⟨by simp, by simp, by simp, by simp⟩, by simp⟩
  case inr.inr.inl => exact .inl ⟨⟨rfl, rfl, rfl, rfl⟩, fun h => by simp [State.storeParameters, h]⟩
  all_goals exact .inl ⟨⟨by simp, by simp, by simp, by simp⟩, by simp⟩

/-- `DIRTY` is set by a `CONFIGURE` that changes a parameter (41_kernel_cache.md R77). -/
theorem State.afterCommand_dirties {s : State} (h0 : s.dirty = false) (h1 : s.afterCommand.dirty = true) :
    s.busy = true ∧ ∃ ks, decode s.latch.cmd = .ok (.configure ks) ∧
      (s.afterCommand.ksize ≠ s.ksize ∨ s.afterCommand.sigma ≠ s.sigma) := by
  rcases s.afterCommand_cases with ⟨-, hc⟩ | ⟨-, c, -, hc⟩ | ⟨hb, ks, hd, hks, -, hc⟩ |
    ⟨-, -, -, -, -, -, -, hc⟩ | ⟨-, -, -, c, -, hc⟩ | ⟨-, -, -, hc⟩ <;> rw [hc] at h1 ⊢
  case inr.inr.inl =>
    have hdiffer : s.parametersDiffer ks s.sigmaOperand = true := by
      simpa [State.storeParameters, h0] using h1
    refine ⟨hb, ks, hd, (State.parametersDiffer_iff.mp hdiffer).imp_left fun hne heq => hne ?_⟩
    have hstored := congrArg BitVec.toNat heq
    simp only [State.finish_ksize, State.storeParameters_ksize, BitVec.toNat_ofNat] at hstored
    omega
  all_goals simp [h0] at h1

/-! ### A register write -/

theorem State.writeCmd_of_idle {s : State} (hb : s.busy = false) (v : Word) : s.writeCmd v = s.accept v := by
  simp [State.writeCmd, hb]

theorem State.writeCmd_of_busy {s : State} (hb : s.busy = true) (v : Word) :
    s.writeCmd v = { s with overrun := true } := by
  simp [State.writeCmd, hb]

section
variable {s : State} {v : Word} {r : Reg}

/-- `CTRL` and `ARG0..2` change by a write to themselves alone (10_state.md R18, R22). -/
theorem State.writeReg_hostRegisters :
    ((s.writeReg v r).irqEn ≠ s.irqEn → r = .ctrl) ∧ ((s.writeReg v r).arg0 ≠ s.arg0 → r = .arg0) ∧
      ((s.writeReg v r).arg1 ≠ s.arg1 → r = .arg1) ∧ ((s.writeReg v r).arg2 ≠ s.arg2 → r = .arg2) := by
  cases r
  case cmd =>
    rw [State.writeReg, State.writeCmd_eq]
    simp
  all_goals simp [State.writeReg]

/-- The latch takes a word on acceptance (20_memory.md R41). -/
theorem State.writeReg_latch_ne (h : (s.writeReg v r).latch ≠ s.latch) :
    r = .cmd ∧ s.busy = false ∧ (s.writeReg v r).latch.cmd = v := by
  cases r
  case cmd =>
    cases hb : s.busy with
    | false => exact ⟨rfl, rfl, congrArg (·.latch.cmd) (State.writeCmd_of_idle hb v)⟩
    | true => exact absurd (congrArg State.latch (State.writeCmd_of_busy hb v)) h
  all_goals exact absurd rfl h

/-- `BUSY` is set by a write of `CMD`, and no write clears it (10_state.md R31). -/
theorem State.writeReg_busy_cases : (r = .cmd ∧ (s.writeReg v r).busy = true) ∨
    (s.writeReg v r).busy = s.busy := by
  cases r
  case cmd => exact .inl ⟨rfl, congrArg State.busy (s.writeCmd_eq v)⟩
  all_goals exact .inr rfl

theorem clearedBy_cases (flag bit : Bool) :
    (bit = true ∧ clearedBy flag bit = false) ∨ clearedBy flag bit = flag := by
  cases bit <;> simp [clearedBy]

/-- `DONE` is cleared by writing its place in `EVENTS` with 1, and no write sets it (10_state.md R20). -/
theorem State.writeReg_done_cases : (r = .events ∧ v.getLsbD 0 = true ∧ (s.writeReg v r).done = false) ∨
    (s.writeReg v r).done = s.done := by
  cases r
  case events =>
    exact (clearedBy_cases s.done (v.getLsbD 0)).imp_left fun ⟨hv, hc⟩ => ⟨rfl, hv, hc⟩
  case cmd => exact .inr (congrArg State.done (s.writeCmd_eq v) :)
  all_goals exact .inr rfl

/-- `OVERRUN` is set by a write of `CMD` while busy and cleared by writing its place in `EVENTS` with 1
(10_state.md R20, 20_memory.md R42). -/
theorem State.writeReg_overrun_cases :
    (r = .events ∧ v.getLsbD 1 = true ∧ (s.writeReg v r).overrun = false) ∨
    (r = .cmd ∧ s.busy = true ∧ (s.writeReg v r).overrun = true) ∨
    (s.writeReg v r).overrun = s.overrun := by
  cases r
  case events =>
    exact (clearedBy_cases s.overrun (v.getLsbD 1)).imp (fun ⟨hv, hc⟩ => ⟨rfl, hv, hc⟩) .inr
  case cmd =>
    cases hb : s.busy with
    | false => exact .inr (.inr (congrArg State.overrun (State.writeCmd_of_idle hb v) :))
    | true => exact .inr (.inl ⟨rfl, rfl, congrArg State.overrun (State.writeCmd_of_busy hb v)⟩)
  all_goals exact .inr (.inr rfl)

/-- A register write leaves the engine's registers alone (20_memory.md R45). -/
theorem State.writeReg_engineSide : SameParameters s (s.writeReg v r) ∧ SameGeometry s (s.writeReg v r) ∧
    SameKernel s (s.writeReg v r) ∧ (s.writeReg v r).dirty = s.dirty ∧
    (s.writeReg v r).result = s.result := by
  rw [State.writeReg_eq]
  exact ⟨⟨rfl, rfl⟩, ⟨rfl, rfl, rfl, rfl⟩, ⟨rfl, rfl, rfl, rfl⟩, rfl, rfl⟩

end

/-! ### One step -/

/-- An access of the host that is no register write leaves every register alone. -/
theorem State.hostAccess_cases (s : State) (access : HostAccess) :
    (∃ r v, s.inReset = false ∧ access = .regWrite r.offset v 0xF#4 ∧
      s.hostAccess access = { s.writeReg v r with reply := .done }) ∨
    ∃ mem disturbed reply draws, s.hostAccess access =
      { s with mem := mem, disturbed := disturbed, reply := reply, draws := draws } := by
  cases access with
  | regRead off enables => exact .inr ⟨s.mem, s.disturbed, _, _, s.regRead_eq off enables⟩
  | regWrite off v enables =>
    rcases s.regWrite_cases off v enables with ⟨-, hc⟩ | ⟨-, -, hc⟩ | ⟨hlegal, hr, r, rfl, hc⟩
    · exact .inr ⟨s.mem, s.disturbed, _, s.draws, hc⟩
    · exact .inr ⟨s.mem, s.disturbed, _, s.draws, hc⟩
    · obtain ⟨-, rfl⟩ := legalAccess_iff.mp hlegal
      exact .inl ⟨r, v, hr, rfl, hc⟩
  | memRead addr => exact .inr ⟨s.mem, s.disturbed, _, _, s.hostRead_eq addr⟩
  | memWrite addr v =>
    rcases s.hostWrite_cases addr v with ⟨-, hc⟩ | ⟨-, hc⟩
    · exact .inr ⟨s.mem, s.disturbed, _, s.draws, hc⟩
    · exact .inr ⟨_, _, _, s.draws, hc⟩

theorem State.not_engineMoves_of_cons {s : State} {a : Turn} {rest : List Turn} (h : s.turns = a :: rest)
    (ha : a ≠ .engine) : ¬s.EngineMoves := by
  rintro (hnil | ⟨rest', hcons⟩)
  · simp [h] at hnil
  · rw [h] at hcons
    exact ha (List.cons.inj hcons).1

theorem State.HostWrites.not_engineMoves {s : State} {off : BitVec 8} {v : Word} (h : s.HostWrites off v) :
    ¬s.EngineMoves := by
  obtain ⟨-, rest, hturns⟩ := h
  exact State.not_engineMoves_of_cons hturns (by simp)

theorem State.ResetMoves.not_engineMoves {s : State} (h : s.ResetMoves) : ¬s.EngineMoves := by
  obtain ⟨rest, hturns⟩ := h
  exact State.not_engineMoves_of_cons hturns (by simp)

/-- Who writes registers in one step: the engine, a register write of the host, an assertion of reset, or
nobody. -/
theorem step_writers {s t : State} (h : step s = .next t) :
    (s.EngineMoves ∧ ∃ rest, t = ({ s with turns := rest } : State).afterCommand) ∨
    (∃ r v rest, s.HostWrites r.offset v ∧
      t = { ({ s with turns := rest } : State).writeReg v r with reply := .done }) ∨
    (s.ResetMoves ∧ ∃ u : State, t = u.resetBlock) ∨
    (¬s.EngineMoves ∧ ∃ turns mem disturbed reply draws inReset, t = { s with
      turns := turns, mem := mem, disturbed := disturbed, reply := reply, draws := draws
      inReset := inReset }) := by
  rcases step_cases h with ⟨hs, rfl⟩ | ⟨access, rest, hs, rfl⟩ | ⟨rest, hs, rfl⟩ | ⟨rest, hs, rfl⟩ |
    ⟨rest, hs, rfl⟩
  · exact .inl ⟨.inl hs, s.turns, rfl⟩
  · rcases ({ s with turns := rest } : State).hostAccess_cases access with
      ⟨r, v, hr, rfl, hc⟩ | ⟨mem, disturbed, reply, draws, hc⟩
    · exact .inr (.inl ⟨r, v, rest, ⟨hr, rest, hs⟩, hc⟩)
    · exact .inr (.inr (.inr ⟨State.not_engineMoves_of_cons hs (by simp),
        rest, mem, disturbed, reply, draws, s.inReset, hc⟩))
  · exact .inl ⟨.inr ⟨rest, hs⟩, rest, rfl⟩
  · exact .inr (.inr (.inl ⟨⟨rest, hs⟩, _, rfl⟩))
  · exact .inr (.inr (.inr ⟨State.not_engineMoves_of_cons hs (by simp),
      rest, s.mem, s.disturbed, s.reply, s.draws, false, rfl⟩))

/-! ### The registers (10_state.md R18, R22 to R29) -/

/-- Settles O53, writer by writer: each group of the engine's registers has its command, each of the host's its
offset. -/
theorem registersChangeOnlyByTheirWriters : Obligations.RegistersChangeOnlyByTheirWriters := by
  intro s t hstep hnoreset
  rcases step_writers hstep with ⟨hm, rest, rfl⟩ | ⟨r, v, rest, hw, rfl⟩ | ⟨hreset, -⟩ |
    ⟨-, turns, mem, disturbed, reply, draws, inReset, rfl⟩
  case inr.inr.inl => exact absurd hreset hnoreset
  case inr.inr.inr => simp
  case inl =>
    obtain ⟨hirq, -, h0, h1, h2, hlatch, -⟩ := ({ s with turns := rest } : State).afterCommand_hostSide
    refine ⟨absurd hirq, absurd h0, absurd h1, absurd h2, fun h => ?_, fun h => ?_, fun h => ?_, fun h => ?_,
      absurd hlatch⟩
    · rcases ({ s with turns := rest } : State).afterCommand_parameters with ⟨hks, hs⟩ | ⟨hb, ks, hd, hres⟩
      · exact h.elim (absurd hks) (absurd hs)
      · exact ⟨ks, ⟨hb, hm, hd⟩, hres⟩
    · rcases ({ s with turns := rest } : State).afterCommand_geometry with
        ⟨hwd, hht, hst, -⟩ | ⟨hb, hd, hres, -⟩
      · exact h.elim (absurd hwd) (Or.rec (absurd hht) (absurd hst))
      · exact ⟨⟨hb, hm, hd⟩, hres⟩
    · rcases ({ s with turns := rest } : State).afterCommand_kernel with
        ⟨⟨hk, hkk, -, hcount⟩, -⟩ | ⟨hb, hd, hdirty, -, -, hcount⟩
      · exact h.elim (absurd hk) (Or.rec (absurd hkk) (absurd hcount))
      · exact ⟨⟨hb, hm, hd⟩, hdirty, hcount⟩
    · refine ⟨?_, hm⟩
      by_contra hb
      rw [State.afterCommand_of_idle (s := { s with turns := rest }) (by simpa using hb)] at h
      exact h rfl
  case inr.inl =>
    obtain ⟨⟨hks, hs⟩, ⟨hwd, hht, hst, -⟩, ⟨hk, hkk, -, hcount⟩, -, hres⟩ :=
      State.writeReg_engineSide (s := { s with turns := rest }) (v := v) (r := r)
    obtain ⟨hctrl, harg0, harg1, harg2⟩ :=
      State.writeReg_hostRegisters (s := { s with turns := rest }) (v := v) (r := r)
    refine ⟨fun h => ?_, fun h => ?_, fun h => ?_, fun h => ?_, Or.rec (absurd hks) (absurd hs),
      Or.rec (absurd hwd) (Or.rec (absurd hht) (absurd hst)),
      Or.rec (absurd hk) (Or.rec (absurd hkk) (absurd hcount)), absurd hres, fun h => ?_⟩
    · obtain rfl := hctrl h
      exact ⟨v, hw⟩
    · obtain rfl := harg0 h
      exact hw
    · obtain rfl := harg1 h
      exact hw
    · obtain rfl := harg2 h
      exact hw
    · obtain ⟨rfl, hb, hcmd⟩ := State.writeReg_latch_ne h
      exact ⟨hb, (congrArg (s.HostWrites 0x10#8) hcmd).mpr hw⟩

/-! ### The flags (10_state.md R31) -/

/-- A flag that is as it was is neither set nor cleared. -/
theorem not_set_of_same {a b : Bool} {P : Prop} (hab : b = a) (h0 : a = false) (h1 : b = true) : P :=
  absurd (h1.symm.trans (hab.trans h0)) (by decide)

theorem not_cleared_of_same {a b : Bool} {P : Prop} (hab : b = a) (h1 : a = true) (h0 : b = false) : P :=
  absurd (h0.symm.trans (hab.trans h1)) (by decide)

/-- Settles O52, writer by writer: the engine and the host set and clear as the lemmas above say, reset leaves
every flag but `DIRTY` clear, and nothing else moves a flag. -/
theorem flagsChangeOnlyAsListed : Obligations.FlagsChangeOnlyAsListed := by
  intro s t hstep
  rcases step_writers hstep with ⟨hm, rest, rfl⟩ | ⟨r, v, rest, hw, rfl⟩ | ⟨hreset, u, rfl⟩ |
    ⟨hm, turns, mem, disturbed, reply, draws, inReset, rfl⟩
  case inl =>
    obtain ⟨-, hover, -⟩ := ({ s with turns := rest } : State).afterCommand_hostSide
    have hidle := ({ s with turns := rest } : State).afterCommand_busy
    have hdone := fun hb => State.afterCommand_done (s := { s with turns := rest }) hb
    refine ⟨fun _ h1 => absurd (h1.symm.trans hidle) (by decide), fun hb _ => .inl ⟨hm, hdone hb⟩,
      fun hb _ => ⟨hidle, hdone hb⟩, fun h0 h1 => ?_, fun h1 h0 => ?_, fun h0 h1 => ?_, fun h1 h0 => ?_,
      fun h0 h1 => ?_, fun h1 h0 => ?_, fun h0 h1 => ⟨?_, hm⟩, fun h1 h0 => ?_, not_set_of_same hover,
      not_cleared_of_same hover⟩
    · obtain ⟨hb, ks, hd, hne⟩ := State.afterCommand_dirties (s := { s with turns := rest }) h0 h1
      exact .inr ⟨ks, ⟨hb, hm, hd⟩, hne⟩
    · rcases ({ s with turns := rest } : State).afterCommand_kernel with
        ⟨-, hkeep⟩ | ⟨hb, hd, -, hk, -, hcount⟩
      · exact not_cleared_of_same ((hkeep h1).trans h1.symm) h1 h0
      · exact ⟨⟨hb, hm, hd⟩, hk, hcount⟩
    · rcases ({ s with turns := rest } : State).afterCommand_kernel with
        ⟨⟨-, -, hkv, -⟩, -⟩ | ⟨hb, hd, hdirty, -⟩
      · exact not_set_of_same hkv h0 h1
      · exact ⟨⟨hb, hm, hd⟩, hdirty⟩
    · rcases ({ s with turns := rest } : State).afterCommand_kernel with
        ⟨⟨-, -, hkv, -⟩, -⟩ | ⟨-, -, -, -, hkv, -⟩
      · exact not_cleared_of_same hkv h1 h0
      · exact not_cleared_of_same (hkv.trans h1.symm) h1 h0
    · rcases ({ s with turns := rest } : State).afterCommand_geometry with
        ⟨-, -, -, hgv⟩ | ⟨hb, hd, hres, -⟩
      · exact not_set_of_same hgv h0 h1
      · exact ⟨⟨hb, hm, hd⟩, hres⟩
    · rcases ({ s with turns := rest } : State).afterCommand_geometry with
        ⟨-, -, -, hgv⟩ | ⟨-, -, -, hgv⟩
      · exact not_cleared_of_same hgv h1 h0
      · exact not_cleared_of_same (hgv.trans h1.symm) h1 h0
    · by_contra hb
      rw [State.afterCommand_of_idle (s := { s with turns := rest }) (by simpa using hb)] at h1
      exact not_set_of_same rfl h0 h1
    · rw [State.afterCommand_done_eq, Bool.or_eq_false_iff] at h0
      exact not_cleared_of_same rfl h1 h0.2
  case inr.inl =>
    obtain ⟨-, ⟨-, -, -, hgv⟩, ⟨-, -, hkv, -⟩, hdirty, -⟩ :=
      State.writeReg_engineSide (s := { s with turns := rest }) (v := v) (r := r)
    have hbusy := State.writeReg_busy_cases (s := { s with turns := rest }) (v := v) (r := r)
    have hdone := State.writeReg_done_cases (s := { s with turns := rest }) (v := v) (r := r)
    have hover := State.writeReg_overrun_cases (s := { s with turns := rest }) (v := v) (r := r)
    refine ⟨fun h0 h1 => ?_, fun h1 h0 => ?_, fun _ hm => absurd hm hw.not_engineMoves,
      not_set_of_same hdirty, not_cleared_of_same hdirty, not_set_of_same hkv, not_cleared_of_same hkv,
      not_set_of_same hgv, not_cleared_of_same hgv, fun h0 h1 => ?_, fun h1 h0 => ?_, fun h0 h1 => ?_,
      fun h1 h0 => ?_⟩
    · rcases hbusy with ⟨rfl, -⟩ | hb
      · exact ⟨v, hw⟩
      · exact not_set_of_same hb h0 h1
    · rcases hbusy with ⟨-, hb⟩ | hb
      · exact not_cleared_of_same (hb.trans h1.symm) h1 h0
      · exact not_cleared_of_same hb h1 h0
    · rcases hdone with ⟨-, -, hd⟩ | hd
      · exact not_set_of_same (hd.trans h0.symm) h0 h1
      · exact not_set_of_same hd h0 h1
    · rcases hdone with ⟨rfl, hv, -⟩ | hd
      · exact .inr ⟨v, hw, hv⟩
      · exact not_cleared_of_same hd h1 h0
    · rcases hover with ⟨-, -, ho⟩ | ⟨rfl, hb, -⟩ | ho
      · exact not_set_of_same (ho.trans h0.symm) h0 h1
      · exact ⟨hb, v, hw⟩
      · exact not_set_of_same ho h0 h1
    · rcases hover with ⟨rfl, hv, -⟩ | ⟨-, -, ho⟩ | ho
      · exact .inr ⟨v, hw, hv⟩
      · exact not_cleared_of_same (ho.trans h1.symm) h1 h0
      · exact not_cleared_of_same ho h1 h0
  case inr.inr.inl =>
    simp [hreset, hreset.not_engineMoves, State.reset]
  case inr.inr.inr =>
    exact ⟨not_set_of_same rfl, not_cleared_of_same rfl, fun _ h => absurd h hm, not_set_of_same rfl,
      not_cleared_of_same rfl, not_set_of_same rfl, not_cleared_of_same rfl, not_set_of_same rfl,
      not_cleared_of_same rfl, not_set_of_same rfl, not_cleared_of_same rfl, not_set_of_same rfl,
      not_cleared_of_same rfl⟩

/-! ### Reset held and released (70_reset_and_hazards.md R118) -/

theorem State.resetBlock_readReg (s : State) (r : Reg) : s.resetBlock.readReg r = State.reset.readReg r := by
  cases r <;> rfl

/-- In reset every register of a legal state reads its reset value. -/
theorem LegalState.readReg_of_inReset {s : State} (h : LegalState s) (hr : s.inReset = true) (r : Reg) :
    s.readReg r = State.reset.readReg r := by
  rw [← State.resetBlock_readReg s r, h.reset_held hr]

/-- In reset a step of a legal state leaves the block idle with every register at its reset value. -/
theorem LegalState.step_of_inReset {s t : State} (h : LegalState s) (hr : s.inReset = true)
    (hstep : step s = .next t) : t.busy = false ∧ ∀ r, t.readReg r = State.reset.readReg r := by
  have hidle := (h.idle_of_inReset hr).1
  rcases step_writers hstep with ⟨-, rest, rfl⟩ | ⟨r, v, rest, ⟨hw, -⟩, -⟩ | ⟨-, u, rfl⟩ |
    ⟨-, turns, mem, disturbed, reply, draws, inReset, rfl⟩
  · rw [State.afterCommand_of_idle (s := { s with turns := rest }) hidle]
    exact ⟨hidle, fun r => (State.readReg_turns s rest r).trans (h.readReg_of_inReset hr r)⟩
  · exact absurd (hw.symm.trans hr) (by decide)
  · exact ⟨rfl, State.resetBlock_readReg u⟩
  · exact ⟨hidle, fun r => (by cases r <;> rfl : _ = s.readReg r).trans (h.readReg_of_inReset hr r)⟩

/-- Settles O48: an assertion answers a `resetBlock`, a legal state in reset is one, and a release is an update of
the reset input. -/
theorem resetRestoresEveryRegister : Obligations.ResetRestoresEveryRegister := by
  refine ⟨fun s rest h => ⟨_, step_of_cons h, rfl, rfl, rfl, State.resetBlock_readReg _⟩,
    fun s t hlegal hr hstep => ?_, fun s rest h => step_of_cons h⟩
  obtain ⟨hidle, hregs⟩ := hlegal.step_of_inReset hr hstep
  refine ⟨hidle, hregs, fun off r rest hoff h => ?_⟩
  have hword : off.toNat % 4 = 0 := Reg.offset_of_ofOffset hoff ▸ r.offset_toNat_mod_four
  rw [step_of_idle_regRead (hlegal.idle_of_inReset hr).1 hword h, State.idleWord_of_named hoff,
    hlegal.readReg_of_inReset hr] at hstep
  rw [← Host.Outcome.next.inj hstep]

end Sys2Proof.Machine
end

section
/-! PROOF. What a command leaves unchanged (20_memory.md R45, R46; 60_exceptions.md R105), and what of the host's
side it does not read (20_memory.md R43). -/

namespace Sys2Proof.Machine

theorem exec_configure (ks : Nat) (s : State) : exec (.configure ks) s = execConfigure ks s := rfl

theorem exec_setGeometry (s : State) : exec .setGeometry s = execSetGeometry s := rfl

theorem exec_processFrame (s : State) : exec .processFrame s = execProcessFrame s := rfl

/-! ### `CONFIGURE` and `SET_GEOMETRY` (41_kernel_cache.md R75, 42_convolution_engine.md R85) -/

/-- `CONFIGURE` either completes with 0x02 and nothing else, or stores its operands. -/
theorem execConfigure_cases (ks : Nat) (s : State) :
    execConfigure ks s = .next (s.finish .invalidParameter) ∨
      execConfigure ks s = .next ((s.storeParameters ks s.sigmaOperand).finish .ok) := by
  by_cases h : 2 < ks ∨ sigmaOk s.sigmaOperand = false
  · exact .inl (execConfigure_of_bad h)
  · push Not at h
    exact .inr (execConfigure_of_ok h.1 (by simpa using h.2))

/-- Settles O13: either command completes alone, or completes with 0x00 after its own stores. -/
theorem parameterCommandsFrame : Obligations.ParameterCommandsFrame := by
  refine ⟨fun ks s t h => ?_, fun s t h => ?_⟩
  · rw [exec_configure] at h
    rcases execConfigure_cases ks s with hc | hc <;> obtain rfl := Host.Outcome.next.inj (hc.symm.trans h)
    · simp [SameHostSide, SameGeometry, SameKernel, SameOwnFields, SameMemory, SameParameters]
    · simp [SameHostSide, SameGeometry, SameKernel, SameOwnFields, SameMemory, ResultCode.code]
  · rw [exec_setGeometry] at h
    rcases execSetGeometry_cases s with ⟨c, -, -, hc⟩ | ⟨-, -, -, -, -, hc⟩ <;>
      obtain rfl := Host.Outcome.next.inj (hc.symm.trans h)
    · simp [SameHostSide, SameGeometry, SameKernel, SameOwnFields, SameMemory, SameParameters]
    · simp [SameHostSide, SameParameters, SameKernel, SameOwnFields, SameMemory, ResultCode.code]

/-! ### `PROCESS_FRAME`, path by path (42_convolution_engine.md R93, R106) -/

/-- The code a `PROCESS_FRAME` completes with, its checks in the order of R106. -/
def State.frameCode (s : State) : ResultCode :=
  if s.ksize = 0#2 then .ok
  else if s.geomValid = false then .missingGeometry
  else if s.lengthOperand < s.frameBytes ∨ 2 ^ 32 < s.baseOperand + s.frameBytes then .buffer
  else if s.busError = true then .bus
  else .ok

/-- Where a check fails, or `KSIZE` is 0, the frame is settled and nothing else but the completion happens. -/
theorem execProcessFrame_of_not_accepted {s : State} (h : ¬s.FrameAccepted) :
    execProcessFrame s = .next (s.settle.finish s.frameCode) := by
  unfold execProcessFrame State.framePlan State.frameCode
  simp only [← State.bufferBad_iff]
  by_cases hks : s.ksize = 0#2
  · simp [hks]
  cases hgeom : s.geomValid with
  | false => simp [hks, State.reject_eq]
  | true =>
    have hbad : s.bufferBad = true := by
      by_contra hok
      exact h (State.framePlan_eq_convolve_iff.mp (by simp [State.framePlan, hks, hgeom, hok]))
    simp [hks, hbad, State.reject_eq]

/-- Where the checks pass the code tells of a memory error alone (R95). -/
theorem State.frameCode_of_accepted {s : State} (h : s.FrameAccepted) :
    s.frameCode = if s.busError = true then .bus else .ok := by
  obtain ⟨hks, hgeom, hlen, htop⟩ := h
  have hbuf : ¬(s.lengthOperand < s.frameBytes ∨ 2 ^ 32 < s.baseOperand + s.frameBytes) := by omega
  rw [State.frameCode, if_neg hks, if_neg (by simp [hgeom]), if_neg hbuf]

/-- `PROCESS_FRAME` completes with its code on every path. -/
theorem execProcessFrame_completed {s t : State} (h : execProcessFrame s = .next t) :
    Completed s.frameCode.code t := by
  by_cases hacc : s.FrameAccepted
  · obtain rfl := Host.Outcome.next.inj ((execProcessFrame_of_accepted hacc).symm.trans h)
    rw [State.frameCode_of_accepted hacc]
    exact ⟨by simp, by simp, by simp⟩
  · obtain rfl := Host.Outcome.next.inj ((execProcessFrame_of_not_accepted hacc).symm.trans h)
    exact ⟨rfl, rfl, rfl⟩

/-- A `PROCESS_FRAME` that convolves nothing changes nothing but its completion, its duties being kept
(60_exceptions.md R105; log 9). -/
theorem State.frameEndsWith_of_not_accepted {s : State} (h : ¬s.FrameAccepted) :
    s.FrameEndsWith s.frameCode.code := by
  refine ⟨_, execProcessFrame_of_not_accepted h, ?_, fun hkept => ?_⟩
  · rw [State.settle_eq]
    rfl
  · rw [State.settle_of_kept hkept]
    exact ⟨rfl, rfl⟩

/-- Settles O14: `KSIZE = 0` is the first test of the code, and no frame is accepted with it. -/
theorem processFrameWithKernelSize0IsIdentity : Obligations.ProcessFrameWithKernelSize0IsIdentity := by
  intro s hks
  have hcode : s.frameCode = .ok := by rw [State.frameCode, if_pos hks]
  have hend := State.frameEndsWith_of_not_accepted (s := s) fun hacc => hacc.1 hks
  rwa [hcode] at hend

/-! ### The frame of `PROCESS_FRAME` (20_memory.md R46) -/

/-- No path of `PROCESS_FRAME` touches the host's side, the parameters, the geometry or the note of log 9; of the
environment it moves at most the count of accesses. -/
theorem execProcessFrame_registers {s t : State} (h : execProcessFrame s = .next t) :
    SameHostSide s t ∧ SameParameters s t ∧ SameGeometry s t ∧ t.disturbed = s.disturbed ∧
      t.env = { s.env with accesses := t.env.accesses } := by
  rcases execProcessFrame_cases s with ⟨c, -, -, hc⟩ | ⟨-, hc⟩ <;>
    obtain rfl := Host.Outcome.next.inj (hc.symm.trans h)
  · simp [SameHostSide, SameParameters, SameGeometry]
  · simp [SameHostSide, SameParameters, SameGeometry, State.convolve]

/-- Where a check fails the kernel state stays. -/
theorem execProcessFrame_kernel_of_not_accepted {s t : State} (hacc : ¬s.FrameAccepted)
    (h : execProcessFrame s = .next t) : SameKernel s t ∧ t.dirty = s.dirty ∧ t.env = s.env := by
  obtain rfl := Host.Outcome.next.inj ((execProcessFrame_of_not_accepted hacc).symm.trans h)
  simp [SameKernel]

/-- Where the checks pass the kernel state is that of the lazy refill. -/
theorem execProcessFrame_kernel_of_accepted {s t : State} (hacc : s.FrameAccepted)
    (h : execProcessFrame s = .next t) : SameKernel s.ensureKernel t ∧ t.dirty = false := by
  obtain rfl := Host.Outcome.next.inj ((execProcessFrame_of_accepted hacc).symm.trans h)
  simp [SameKernel]

/-- Every unspecified byte is in the frame region, for a legal geometry. -/
theorem State.Unsettled.inFrameRegion {s : State} {a : Nat} (hg : s.GeometryOk) (h : s.Unsettled a) :
    s.inFrameRegion a = true :=
  State.unspecifiedBytes_inRegion hg (State.mem_unspecifiedBytes.mpr h)

/-- Over plain memory only interior bytes are unspecified. -/
theorem State.not_unsettled_of_plain {s : State} {a : Nat} (hplain : s.FrameIsPlain)
    (h : ∀ p, s.Interior p → s.address p ≠ a) : ¬s.Unsettled a := by
  rintro ⟨-, ⟨-, p, hp, hpa⟩ | ⟨hnot, -⟩⟩
  · exact h p hp hpa
  · exact hnot hplain

/-- Over plain memory an interior byte that exists is unspecified. -/
theorem State.Interior.unsettled {s : State} {p : Sample} (hp : s.Interior p) (hplain : s.FrameIsPlain)
    (hlt : s.address p < 2 ^ 32) : s.Unsettled (s.address p) :=
  ⟨hlt, .inl ⟨hplain, p, hp, rfl⟩⟩

/-- `PROCESS_FRAME` keeps every byte that is neither unspecified nor interior. -/
theorem execProcessFrame_read_of_settled {s t : State} (hm : s.mem.wf = true) (hg : s.GeometryOk)
    (h : execProcessFrame s = .next t) {a : Nat} (hu : ¬s.Unsettled a)
    (hint : ∀ p, s.Interior p → s.address p ≠ a) : t.mem.read a = s.mem.read a := by
  rcases execProcessFrame_cases s with ⟨c, -, -, hc⟩ | ⟨-, hc⟩ <;>
    obtain rfl := Host.Outcome.next.inj (hc.symm.trans h)
  · exact State.settle_read_of_not_unsettled hm hu
  · rw [State.convolve_mem]
    by_cases hfree : s.ensureKernel.busError = true ∨ s.ensureKernel.dutyBroken = true
    · rw [State.convolved_read_of_free (by simpa using hm) hfree, State.ensureKernel_unspecifiedBytes,
        if_neg fun hmem => hu (State.mem_unspecifiedBytes.mp hmem), State.ensureKernel_mem]
    · simp only [not_or, Bool.not_eq_true] at hfree
      have hread := (State.convolved_read_of_kept (s := s.ensureKernel) (by simpa using hm) (by simpa using hg)
        hfree.1 hfree.2).2 a
      simpa using hread (by simpa using hint)

/-- Settles O20: the registers path by path, then `execProcessFrame_read_of_settled` for memory. -/
theorem processFrameFrame : Obligations.ProcessFrameFrame := by
  intro s t hm hg h
  rw [exec_processFrame] at h
  obtain ⟨hhost, hparams, hgeom, hdist, henv⟩ := execProcessFrame_registers h
  refine ⟨hhost, hparams, hgeom, hdist, henv, fun hacc => ?_,
    fun hacc => execProcessFrame_kernel_of_accepted hacc h, fun a ha => ?_, fun hplain a ha => ?_⟩
  · obtain ⟨hkernel, hdirty, hsame⟩ := execProcessFrame_kernel_of_not_accepted hacc h
    refine ⟨hkernel, hdirty, hsame, fun hkept => ?_⟩
    obtain rfl := Host.Outcome.next.inj ((execProcessFrame_of_not_accepted hacc).symm.trans h)
    rw [State.settle_of_kept hkept]
    exact ⟨⟨rfl, rfl, rfl⟩, fun _ => rfl⟩
  · have hout : ¬s.inFrameRegion a = true := by simp [ha]
    exact execProcessFrame_read_of_settled hm hg h (fun hu => hout (hu.inFrameRegion hg))
      fun p hp hpa => hout (hpa ▸ hp.inFrame.address_inRegion hg)
  · exact execProcessFrame_read_of_settled hm hg h (State.not_unsettled_of_plain hplain ha) ha

/-! ### A broken duty (20_memory.md R52 item 4, 70_reset_and_hazards.md R121) -/

/-- A `PROCESS_FRAME` over which a duty is broken leaves the unspecified bytes free, and them alone. -/
theorem execProcessFrame_read_of_broken {s t : State} (hm : s.mem.wf = true)
    (hbroken : ¬s.BorrowKept ∨ (s.FrameAccepted ∧ s.env.hostOrder = false))
    (h : execProcessFrame s = .next t) (a : Nat) :
    t.mem.read a = if a ∈ s.unspecifiedBytes then Config.freeByte s.draws a else s.mem.read a := by
  by_cases hacc : s.FrameAccepted
  · have hduty : s.dutyBroken = true := by
      rw [← Bool.not_eq_false, State.dutyBroken_eq_false_iff]
      rintro ⟨hkept, horder⟩
      rcases hbroken with hb | ⟨-, ho⟩
      · exact hb hkept
      · simp [ho] at horder
    obtain rfl := Host.Outcome.next.inj ((execProcessFrame_of_accepted hacc).symm.trans h)
    have hread := State.convolved_read_of_free (s := s.ensureKernel) (by simpa using hm)
      (.inr (by simpa using hduty)) a
    simpa using hread
  · obtain rfl := Host.Outcome.next.inj ((execProcessFrame_of_not_accepted hacc).symm.trans h)
    rw [State.finish_mem, State.settle_of_broken (hbroken.resolve_right fun hb => hacc hb.1),
      State.freeBytes_read hm]

/-- Settles O19: the code and the registers path by path, then `execProcessFrame_read_of_broken` for memory. -/
theorem brokenDutyLeavesFrameUnspecified : Obligations.BrokenDutyLeavesFrameUnspecified := by
  intro s hm hg hbroken
  obtain ⟨t, h, -⟩ := exec_idle .processFrame s
  obtain ⟨hhost, hparams, hgeom, -⟩ := execProcessFrame_registers h
  have hcode := execProcessFrame_completed h
  simp only [State.frameCode, apply_ite ResultCode.code] at hcode
  have hread := execProcessFrame_read_of_broken hm hbroken h
  refine ⟨t, h, hcode, hhost, hparams, hgeom, fun hacc => execProcessFrame_kernel_of_accepted hacc h,
    fun hacc => ?_, fun a ha => ?_, fun a ha => ?_⟩
  · obtain ⟨hkernel, hdirty, -⟩ := execProcessFrame_kernel_of_not_accepted hacc h
    exact ⟨hkernel, hdirty⟩
  · rw [hread, if_pos (State.mem_unspecifiedBytes.mpr ha)]
  · rw [hread, if_neg fun hmem => ha (State.mem_unspecifiedBytes.mp hmem)]

end Sys2Proof.Machine
end

section
/-! PROOF. The register port while a command runs (20_memory.md R37 to R44): what a write does, offset by offset;
that the running command reads nothing of the host's side, so completes with the same effects whatever is written
there; and what a read may answer. -/

namespace Sys2Proof.Machine

/-! ### Writes (20_memory.md R37, R41 to R43) -/

/-- A legal write outside reset takes effect in its step. -/
theorem step_of_named_regWrite {s : State} {off : BitVec 8} {r : Reg} {v : Word} {rest : List Turn}
    (hreset : s.inReset = false) (hr : Reg.ofOffset off = some r)
    (h : s.turns = .host (.regWrite off v 0xF#4) :: rest) :
    step s = .next { ({ s with turns := rest } : State).writeReg v r with reply := .done } := by
  have hoff : off.toNat % 4 = 0 := Reg.offset_of_ofOffset hr ▸ r.offset_toNat_mod_four
  rw [step_of_regWrite h, State.regWrite_of_named (s := { s with turns := rest }) v hreset hoff hr]

/-- Settles O37: an idle block accepts the word. -/
theorem acceptanceLatchesWordAndArguments : Obligations.AcceptanceLatchesWordAndArguments := by
  intro s v rest hreset hb h
  rw [step_of_named_regWrite (r := .cmd) hreset rfl h, State.writeReg,
    State.writeCmd_of_idle (s := { s with turns := rest }) hb]
  rfl

/-- Settles O38: a busy block drops the word. -/
theorem commandWriteWhileBusyIsDropped : Obligations.CommandWriteWhileBusyIsDropped := by
  intro s v rest hreset hb h
  rw [step_of_named_regWrite (r := .cmd) hreset rfl h, State.writeReg,
    State.writeCmd_of_busy (s := { s with turns := rest }) hb]

theorem legalAccess_eq_false {off : BitVec 8} {enables : BitVec 4} (h : off.toNat % 4 ≠ 0 ∨ enables ≠ 0xF#4) :
    legalAccess off enables = false := by
  rw [← Bool.not_eq_true, legalAccess_iff]
  tauto

/-- Settles O40: the port tests a transaction before anything else. -/
theorem illegalTransactionHasNoEffect : Obligations.IllegalTransactionHasNoEffect := by
  intro s off v enables rest hill h
  have hlegal := legalAccess_eq_false hill
  rcases h with h | h
  · simp [step_of_regRead h, State.regRead, hlegal]
  · simp [step_of_regWrite h, State.regWrite, hlegal]

/-! ### What a running command does not read (20_memory.md R43) -/

/-- `s` with the host's side of `u`: the registers the host writes, `OVERRUN`, the schedule and the answer; and
with this `DONE`. -/
def State.withHostSide (s u : State) (done : Bool) : State :=
  { s with
    irqEn := u.irqEn, overrun := u.overrun, arg0 := u.arg0, arg1 := u.arg1, arg2 := u.arg2
    turns := u.turns, reply := u.reply, done := done }

theorem State.withHostSide_finish (s u : State) (done : Bool) (c : ResultCode) :
    (s.withHostSide u done).finish c = (s.finish c).withHostSide u true := rfl

theorem State.withHostSide_settle (s u : State) (done : Bool) :
    (s.withHostSide u done).settle = s.settle.withHostSide u done := by
  have hbroken : (s.withHostSide u done).borrowBroken = s.borrowBroken := rfl
  unfold State.settle
  rw [hbroken]
  split <;> rfl

theorem State.withHostSide_ensureKernel (s u : State) (done : Bool) :
    (s.withHostSide u done).ensureKernel = s.ensureKernel.withHostSide u done := by
  have hdirty : (s.withHostSide u done).dirty = s.dirty := rfl
  unfold State.ensureKernel
  rw [hdirty]
  split <;> rfl

theorem State.withHostSide_convolved (s u : State) (done : Bool) :
    (s.withHostSide u done).convolved = s.convolved.withHostSide u done := by
  have hfree : ((s.withHostSide u done).busError || (s.withHostSide u done).dutyBroken) =
    (s.busError || s.dutyBroken) := rfl
  unfold State.convolved
  rw [hfree]
  split <;> rfl

theorem State.withHostSide_convolve (s u : State) (done : Bool) :
    (s.withHostSide u done).convolve = s.convolve.withHostSide u true := by
  unfold State.convolve
  rw [State.withHostSide_convolved]
  rfl

/-- A command completes with the same effects whatever the host's side and `DONE` hold. -/
theorem exec_withHostSide (i : Instr) {s t : State} (u : State) (done : Bool) (h : exec i s = .next t) :
    exec i (s.withHostSide u done) = .next (t.withHostSide u true) := by
  cases i with
  | configure ks =>
    rw [exec_configure] at h ⊢
    by_cases hbad : 2 < ks ∨ sigmaOk s.sigmaOperand = false
    · obtain rfl := Host.Outcome.next.inj ((execConfigure_of_bad hbad).symm.trans h)
      exact execConfigure_of_bad (s := s.withHostSide u done) hbad
    · push Not at hbad
      have hsigma : sigmaOk s.sigmaOperand = true := by simpa using hbad.2
      obtain rfl := Host.Outcome.next.inj ((execConfigure_of_ok hbad.1 hsigma).symm.trans h)
      exact execConfigure_of_ok (s := s.withHostSide u done) hbad.1 hsigma
  | setGeometry =>
    rw [exec_setGeometry] at h ⊢
    unfold execSetGeometry at h
    simp only at h
    split_ifs at h with hzero hbig hstride <;> obtain rfl := Host.Outcome.next.inj h
    · exact if_pos hzero
    · exact (if_neg hzero).trans (if_pos hbig)
    · exact (if_neg hzero).trans ((if_neg hbig).trans (if_pos hstride))
    · exact (if_neg hzero).trans ((if_neg hbig).trans (if_neg hstride))
  | processFrame =>
    rw [exec_processFrame] at h ⊢
    by_cases hacc : s.FrameAccepted
    · obtain rfl := Host.Outcome.next.inj ((execProcessFrame_of_accepted hacc).symm.trans h)
      rw [execProcessFrame_of_accepted (s := s.withHostSide u done) hacc, State.withHostSide_ensureKernel,
        State.withHostSide_convolve]
    · obtain rfl := Host.Outcome.next.inj ((execProcessFrame_of_not_accepted hacc).symm.trans h)
      rw [execProcessFrame_of_not_accepted (s := s.withHostSide u done) hacc, State.withHostSide_settle,
        State.withHostSide_finish]
      rfl

/-- A command leaves the host's side as it was and sets `DONE`. -/
theorem exec_keeps_hostSide {i : Instr} {s t : State} (h : exec i s = .next t) : t = t.withHostSide s true := by
  have hself : exec i s = .next (t.withHostSide s true) := exec_withHostSide i s s.done h
  exact Host.Outcome.next.inj (h.symm.trans hself)

/-- Settles O39: each write is its register's, and a command reads nothing of the host's side. -/
theorem runningCommandIgnoresLaterArguments : Obligations.RunningCommandIgnoresLaterArguments := by
  refine ⟨fun s v rest hreset => ⟨fun h => step_of_named_regWrite (r := .arg0) hreset rfl h,
    fun h => step_of_named_regWrite (r := .arg1) hreset rfl h,
    fun h => step_of_named_regWrite (r := .arg2) hreset rfl h,
    fun h => step_of_named_regWrite (r := .ctrl) hreset rfl h,
    fun h => step_of_named_regWrite (r := .events) hreset rfl h⟩, fun i s t v0 v1 v2 e d o rep h => ?_⟩
  have hexec := exec_withHostSide i
    { s with arg0 := v0, arg1 := v1, arg2 := v2, irqEn := e, overrun := o, reply := rep } d h
  rw [exec_keeps_hostSide h]
  exact hexec

/-! ### Reads while busy (20_memory.md R44) -/

theorem State.afterCommand_of_exec {s t : State} {i : Instr} (hb : s.busy = true)
    (hd : decode s.latch.cmd = .ok i) (h : exec i s = .next t) : s.afterCommand = t :=
  Host.Outcome.next.inj ((engineStep_eq s).symm.trans ((engineStep_of_ok hb hd).trans h))

theorem State.afterCommand_of_illegal {s : State} {e : Illegal} (hb : s.busy = true)
    (hd : decode s.latch.cmd = .error e) : s.afterCommand = s.finished 0x01#8 :=
  Host.Outcome.next.inj ((engineStep_eq s).symm.trans (engineStep_of_error hb hd))

/-- The completion of a running command does not depend on the host's side. -/
theorem State.afterCommand_withHostSide {s : State} (hb : s.busy = true) (u : State) (done : Bool) :
    (s.withHostSide u done).afterCommand = s.afterCommand.withHostSide u true := by
  cases hd : decode s.latch.cmd with
  | ok i =>
    obtain ⟨t, h, -⟩ := exec_idle i s
    rw [State.afterCommand_of_exec hb hd h]
    exact State.afterCommand_of_exec (s := s.withHostSide u done) hb hd (exec_withHostSide i u done h)
  | error e =>
    rw [State.afterCommand_of_illegal hb hd]
    exact State.afterCommand_of_illegal (s := s.withHostSide u done) hb hd

/-- Nor does it depend on the schedule, which it leaves as it was. -/
theorem State.afterCommand_turns {s : State} (hb : s.busy = true) (rest : List Turn) :
    ({ s with turns := rest } : State).afterCommand = { s.afterCommand with turns := rest } := by
  have hself : s.afterCommand = s.afterCommand.withHostSide s true := State.afterCommand_withHostSide hb s s.done
  rw [hself]
  exact State.afterCommand_withHostSide hb { s with turns := rest } s.done

theorem State.regRead_of_busy {s : State} {off : BitVec 8} {r : Reg} (hb : s.busy = true)
    (hoff : off.toNat % 4 = 0) (hr : Reg.ofOffset off = some r) :
    s.regRead off 0xF#4 =
      { s with reply := .word (s.readRegBusy r), draws := s.draws + drawsPerRead } := by
  simp [State.regRead, legalAccess_iff.mpr ⟨hoff, rfl⟩, hr, hb]

theorem beforeOrAfter_cases {α : Type} (n : Nat) (before after : α) :
    beforeOrAfter n before after = before ∨ beforeOrAfter n before after = after := by
  unfold beforeOrAfter
  split
  · exact .inr rfl
  · exact .inl rfl

/-- The host's registers, `ID` and `CMD` have one value while a command runs. -/
theorem State.readRegBusy_of_hostRegister (s : State) {r : Reg}
    (h : r ∈ [Reg.id, .ctrl, .events, .cmd, .arg0, .arg1, .arg2]) : s.readRegBusy r = s.readReg r := by
  simp only [List.mem_cons, List.not_mem_nil, or_false] at h
  rcases h with rfl | rfl | rfl | rfl | rfl | rfl | rfl <;> rfl

/-- A state register reads as before or as after the running command. -/
theorem State.readRegBusy_of_stateRegister (s : State) {r : Reg}
    (h : r ∉ [Reg.id, .ctrl, .status, .events, .cmd, .arg0, .arg1, .arg2]) :
    s.readRegBusy r = s.readReg r ∨ s.readRegBusy r = s.afterCommand.readReg r := by
  cases r
  case id | ctrl | status | events | cmd | arg0 | arg1 | arg2 => simp at h
  all_goals exact beforeOrAfter_cases ..

/-- Settles O44: an idle block answers what the register holds, a busy one `State.readRegBusy`. -/
theorem busyReadsAreBeforeOrAfter : Obligations.BusyReadsAreBeforeOrAfter := by
  intro s off rest r hoff hr h
  cases hb : s.busy with
  | false =>
    refine ⟨_, s.readReg r, step_of_idle_regRead hb hoff h, ?_, hb, fun _ => rfl,
      fun hbusy => absurd hbusy (by decide)⟩
    rw [State.idleWord_of_named hr]
  | true =>
    rw [step_of_regRead h, State.regRead_of_busy (s := { s with turns := rest }) hb hoff hr]
    refine ⟨_, _, rfl, rfl, hb, fun hidle => absurd hidle (by decide), fun _ =>
      ⟨fun hmem => ?_, fun hmem => ?_, ?_⟩⟩
    · rw [State.readRegBusy_of_hostRegister _ hmem, State.readReg_turns]
    · have hread := State.readRegBusy_of_stateRegister { s with turns := rest } hmem
      rwa [State.afterCommand_turns hb, State.readReg_turns, State.readReg_turns] at hread
    · rintro rfl
      have hafter := State.afterCommand_turns hb rest
      rw [State.readRegBusy, hafter]
      simp only [statusWord_getLsbD, statusWord_result, statusWord_reserved]
      exact ⟨hb, beforeOrAfter_cases .., beforeOrAfter_cases .., beforeOrAfter_cases .., trivial, trivial, trivial⟩

end Sys2Proof.Machine
end

section
/-! PROOF. The host's own path to frame memory, over plain bytes and over the region of a running `PROCESS_FRAME`,
and the frame that an assertion of reset abandons (20_memory.md R49, R52; 70_reset_and_hazards.md R119, R121). -/

namespace Sys2Proof.Machine

/-! ### Host accesses of frame memory (20_memory.md R49, R52) -/

theorem State.borrowed_iff {s : State} {a : Nat} : s.borrowed a = true ↔
    s.busy = true ∧ decode s.latch.cmd = .ok .processFrame ∧ s.inFrameRegion a = true := by
  rw [State.borrowed, Bool.and_eq_true, State.frameRunning_iff, and_assoc]

theorem State.hostRead_of_borrowed {s : State} {a : Word} (h : s.borrowed a.toNat = true) :
    s.hostRead a =
      { s with reply := .byte (Config.freeByte s.draws a.toNat), draws := s.draws + 1 } := by
  rw [State.hostRead, h, Bool.true_or, if_pos rfl]

theorem State.hostRead_of_plain {s : State} {a : Word} (hown : s.borrowed a.toNat = false)
    (hplain : s.isDevice a.toNat = false) :
    s.hostRead a = { s with reply := .byte (s.mem.read a.toNat) } := by
  simp [State.hostRead, hown, hplain]

theorem State.hostWrite_of_plain {s : State} {a : Word} (hplain : s.isDevice a.toNat = false) (v : Byte) :
    s.hostWrite a v =
      { s with
        mem := s.mem.write a.toNat v
        disturbed := s.disturbed || s.borrowed a.toNat
        reply := .done } := by
  simp [State.hostWrite, hplain]

theorem step_of_memRead {s : State} {a : Word} {rest : List Turn} (h : s.turns = .host (.memRead a) :: rest) :
    step s = .next (({ s with turns := rest } : State).hostRead a) :=
  step_of_cons h

theorem step_of_memWrite {s : State} {a : Word} {v : Byte} {rest : List Turn}
    (h : s.turns = .host (.memWrite a v) :: rest) :
    step s = .next (({ s with turns := rest } : State).hostWrite a v) :=
  step_of_cons h

/-- Settles O56: a plain byte outside the borrowed region is plain memory to the host. -/
theorem hostReadsAndStoresPlainBytes : Obligations.HostReadsAndStoresPlainBytes := by
  intro s a v rest hm hplain
  rw [← State.borrowed_iff, Bool.not_eq_true]
  refine ⟨fun hown h => ?_, fun h => ⟨_, step_of_memWrite h, ?_⟩⟩
  · rw [step_of_memRead h, State.hostRead_of_plain (s := { s with turns := rest }) hown hplain]
  · rw [State.hostWrite_of_plain (s := { s with turns := rest }) hplain]
    refine ⟨rfl, Memory.read_write hm a.toNat v, fun hown => ?_⟩
    exact (congrArg (s.disturbed || ·) hown).trans (Bool.or_false _)

/-! ### An unspecified frame over plain memory (20_memory.md R52 item 4, 70_reset_and_hazards.md R119) -/

/-- Over plain memory, where the unspecified bytes are free the interior bytes are, and every byte that is not
interior is kept. -/
theorem State.interior_free_of_read {s : State} {before after : Memory} (hplain : s.FrameIsPlain)
    (hread : ∀ a, after.read a =
      if a ∈ s.unspecifiedBytes then Config.freeByte s.draws a else before.read a) :
    (∀ p, s.Interior p → s.address p < 2 ^ 32 →
      after.read (s.address p) = Config.freeByte s.draws (s.address p)) ∧
      ∀ a, (∀ p, s.Interior p → s.address p ≠ a) → after.read a = before.read a := by
  refine ⟨fun p hp hlt => ?_, fun a ha => ?_⟩
  · rw [hread, if_pos (State.mem_unspecifiedBytes.mpr (hp.unsettled hplain hlt))]
  · rw [hread, if_neg fun hmem => State.not_unsettled_of_plain hplain ha (State.mem_unspecifiedBytes.mp hmem)]

/-- Settles O46: the host's write breaks H-2, so that `execProcessFrame_read_of_broken` speaks of the completion. -/
theorem borrowedFrameIsUnspecifiedToTheHost : Obligations.BorrowedFrameIsUnspecifiedToTheHost := by
  refine ⟨fun s a rest hb hd hin h => ?_, fun s t a v hm _ hb hd hplain hin h => ?_⟩
  · rw [step_of_memRead h,
      State.hostRead_of_borrowed (s := { s with turns := rest }) (State.borrowed_iff.mpr ⟨hb, hd, hin⟩)]
  · rw [exec_processFrame, State.hostWrite_of_plain (hplain _ hin),
      State.borrowed_iff.mpr ⟨hb, hd, hin⟩, Bool.or_true] at h
    have hread := execProcessFrame_read_of_broken (Memory.write_wf hm a.toNat v)
      (.inl fun hkept => absurd hkept.1 (by simp)) h
    obtain ⟨hfree, hkeep⟩ := State.interior_free_of_read
      (s := { s with mem := s.mem.write a.toNat v, disturbed := true, reply := .done }) hplain hread
    refine ⟨hfree, fun ha => ?_, fun b hba hb => ?_⟩
    · rw [hkeep _ ha, Memory.read_write hm, if_pos rfl]
    · rw [hkeep _ hb, Memory.read_write hm, if_neg hba]

/-- Over plain memory an assertion of reset frees the unspecified bytes of a running `PROCESS_FRAME` that passes its
checks or whose region the host wrote, and changes no memory otherwise (R119; log 9, 11). -/
theorem State.abandonFrame_of_plain {s : State} (hplain : s.FrameIsPlain) :
    (s.busy = true ∧ decode s.latch.cmd = .ok .processFrame ∧ (s.FrameAccepted ∨ s.disturbed = true) ∧
      s.abandonFrame = s.freeBytes s.unspecifiedBytes) ∨
    (¬(s.busy = true ∧ decode s.latch.cmd = .ok .processFrame ∧ (s.FrameAccepted ∨ s.disturbed = true)) ∧
      s.abandonFrame = s) := by
  rcases s.abandonFrame_cases with ⟨hb, hd, hacc, hc⟩ | ⟨hb, hd, hacc, hc⟩ | ⟨hnone, hc⟩
  · exact .inl ⟨hb, hd, .inl hacc, hc⟩
  · cases hdist : s.disturbed with
    | true =>
      have hbroken : ¬s.BorrowKept := fun hkept => absurd (hdist.symm.trans hkept.1) (by decide)
      exact .inl ⟨hb, hd, .inr rfl, hc.trans (State.settle_of_broken hbroken)⟩
    | false => exact .inr ⟨by simp [hacc], hc.trans (State.settle_of_kept ⟨hdist, hplain⟩)⟩
  · exact .inr ⟨fun h => hnone ⟨h.1, h.2.1⟩, hc⟩

/-- Settles O49, by `State.abandonFrame_of_plain`: a reset keeps the memory that the abandoned command leaves. -/
theorem resetAbandonsTheRunningCommand : Obligations.ResetAbandonsTheRunningCommand := by
  intro s rest hm _ hplain h
  refine ⟨_, step_of_cons h, rfl, rfl, ?_⟩
  rcases State.abandonFrame_of_plain (s := { s with turns := rest }) hplain with
    ⟨hb, hd, hwhy, hc⟩ | ⟨hnone, hc⟩ <;> rw [hc]
  · refine ⟨fun _ _ _ => State.interior_free_of_read hplain fun a => ?_,
      fun hnone => absurd ⟨hb, hd, hwhy⟩ hnone⟩
    exact State.freeBytes_read (s := { s with turns := rest }) hm _ a
  · exact ⟨fun hb hd hwhy => absurd ⟨hb, hd, hwhy⟩ hnone, fun _ => rfl⟩

end Sys2Proof.Machine
end

section
/-! PROOF. The command word (30_encoding.md R57 to R60): the three fields of the format are all of a word, so that
a word decodes exactly where it is the encoding of a well-formed command; and the completion of a word that is
none. -/

namespace Sys2Proof.Machine

/-! ### The fields of the format `CMDW` (30_encoding.md R57) -/

@[simp] theorem opField_assemble (rsv : BitVec 22) (ks : BitVec 2) (op : BitVec 8) :
    opField (assemble rsv ks op) = op :=
  BitVec.extractLsb'_append_eq_right

@[simp] theorem ksField_assemble (rsv : BitVec 22) (ks : BitVec 2) (op : BitVec 8) :
    ksField (assemble rsv ks op) = ks :=
  (BitVec.extractLsb'_append_eq_of_le le_rfl).trans BitVec.extractLsb'_append_eq_right

@[simp] theorem rsvField_assemble (rsv : BitVec 22) (ks : BitVec 2) (op : BitVec 8) :
    rsvField (assemble rsv ks op) = rsv :=
  (BitVec.extractLsb'_append_eq_of_le (by decide)).trans BitVec.extractLsb'_append_eq_left

/-- The fields leave no bit of a word out. -/
theorem assemble_fields (w : Word) : assemble (rsvField w) (ksField w) (opField w) = w := by
  have hhigh : rsvField w ++ ksField w = w.extractLsb' 8 24 :=
    BitVec.extractLsb'_append_extractLsb'_eq_extractLsb' rfl
  have hall : w.extractLsb' 8 24 ++ opField w = w.extractLsb' 0 32 :=
    BitVec.extractLsb'_append_extractLsb'_eq_extractLsb' rfl
  rw [assemble, hhigh, hall, BitVec.extractLsb'_eq_self]

theorem opField_toNat (w : Word) : (opField w).toNat = w.toNat % 2 ^ 8 := by
  simp [opField]

theorem ksField_toNat (w : Word) : (ksField w).toNat = w.toNat / 2 ^ 8 % 4 := by
  simp [ksField, Nat.shiftRight_eq_div_pow]

theorem rsvField_toNat (w : Word) : (rsvField w).toNat = w.toNat / 2 ^ 10 := by
  have hw : w.toNat < 2 ^ 32 := w.isLt
  simp only [rsvField, BitVec.extractLsb'_toNat, Nat.shiftRight_eq_div_pow]
  omega

/-! ### Decode and encode (30_encoding.md R57 to R59) -/

theorem decode_encode {i : Instr} (h : i.wellFormed = true) : decode (encode i) = .ok i := by
  cases i with
  | configure ks =>
    have hks : ks < 4 := of_decide_eq_true h
    simp [decode, encode, Nat.mod_eq_of_lt hks]
  | setGeometry => simp [decode, encode]
  | processFrame => simp [decode, encode]

/-- Each arm of the decoder that answers a command fixes the whole word, `KS` in `CONFIGURE` being the operand. -/
theorem encode_of_decode {w : Word} {i : Instr} (h : decode w = .ok i) :
    i.wellFormed = true ∧ encode i = w := by
  have hfields := assemble_fields w
  unfold decode at h
  split_ifs at h with hop hrsv hop hrsv hks hop hrsv hks <;> cases h
  · rw [hop, hrsv] at hfields
    exact ⟨decide_eq_true (ksField w).isLt, by simpa [encode] using hfields⟩
  · rw [hop, not_not.mp hrsv, not_not.mp hks] at hfields
    exact ⟨rfl, hfields⟩
  · rw [hop, not_not.mp hrsv, not_not.mp hks] at hfields
    exact ⟨rfl, hfields⟩

/-- Settles O2: a round trip for each command, and `encode_of_decode` for each word. -/
theorem decodeInvertsEncode : Obligations.DecodeInvertsEncode :=
  ⟨fun _ => decode_encode, fun _ _ => encode_of_decode⟩

/-! ### The opcode map (30_encoding.md R59) -/

theorem decode_eq_ok_iff {w : Word} {i : Instr} : decode w = .ok i ↔ i.wellFormed = true ∧ encode i = w := by
  refine ⟨encode_of_decode, ?_⟩
  rintro ⟨hwf, rfl⟩
  exact decode_encode hwf

/-- The mask of `CONFIGURE` leaves `KS` out. -/
theorem assemble_and_configureMask (rsv : BitVec 22) (ks : BitVec 2) (op : BitVec 8) :
    assemble rsv ks op &&& 0xFFFFFCFF#32 = assemble rsv 0 op := by
  have hmask : 0xFFFFFCFF#32 = assemble (BitVec.allOnes 22) 0 (BitVec.allOnes 8) := by decide
  have hks : ks &&& 0 = 0 := BitVec.and_zero
  rw [hmask, assemble, assemble, assemble, BitVec.and_append, BitVec.and_append, BitVec.and_allOnes,
    BitVec.and_allOnes, hks]

/-- A word that matches the row of `CONFIGURE` is the encoding of one, whose operand is its `KS`. -/
theorem encode_of_configureMask {w : Word} (h : w &&& 0xFFFFFCFF#32 = 0x00000001#32) :
    encode (.configure (ksField w).toNat) = w := by
  have hrow : assemble (rsvField w) 0 (opField w) = 0x00000001#32 := by
    rw [← assemble_and_configureMask _ (ksField w), assemble_fields, h]
  have hrsv : rsvField w = 0 := (rsvField_assemble _ _ _).symm.trans (congrArg rsvField hrow)
  have hop : opField w = 0x01#8 := (opField_assemble _ _ _).symm.trans (congrArg opField hrow)
  rw [encode, BitVec.ofNat_toNat, BitVec.setWidth_eq, ← hrsv, ← hop, assemble_fields]

theorem decode_eq_configure_iff {w : Word} {ks : Nat} : decode w = .ok (.configure ks) ↔
    w &&& 0xFFFFFCFF#32 = 0x00000001#32 ∧ ks = w.toNat / 2 ^ 8 % 4 := by
  rw [← ksField_toNat]
  constructor
  · intro h
    obtain ⟨hwf, rfl⟩ := encode_of_decode h
    have hks : ks < 4 := of_decide_eq_true hwf
    exact ⟨Laws.TableRow.configure ks, by simp [encode, Nat.mod_eq_of_lt hks]⟩
  · rintro ⟨hmask, rfl⟩
    exact decode_eq_ok_iff.mpr ⟨decide_eq_true (ksField w).isLt, encode_of_configureMask hmask⟩

theorem decode_eq_setGeometry_iff {w : Word} : decode w = .ok .setGeometry ↔ w = 0x00000002#32 :=
  decode_eq_ok_iff.trans ⟨fun h => h.2.symm, fun h => ⟨rfl, h.symm⟩⟩

theorem decode_eq_processFrame_iff {w : Word} : decode w = .ok .processFrame ↔ w = 0x00000003#32 :=
  decode_eq_ok_iff.trans ⟨fun h => h.2.symm, fun h => ⟨rfl, h.symm⟩⟩

/-- A word is illegal where it matches no row. -/
theorem decode_eq_error_iff {w : Word} : (∃ e, decode w = .error e) ↔
    w &&& 0xFFFFFCFF#32 ≠ 0x00000001#32 ∧ w ≠ 0x00000002#32 ∧ w ≠ 0x00000003#32 := by
  have hnone : (∃ e, decode w = .error e) ↔ ∀ i, decode w ≠ .ok i := by
    cases decode w <;> simp
  rw [hnone]
  constructor
  · intro h
    exact ⟨fun hmask => h _ (decode_eq_configure_iff.mpr ⟨hmask, rfl⟩),
      fun hw => h _ (decode_eq_setGeometry_iff.mpr hw), fun hw => h _ (decode_eq_processFrame_iff.mpr hw)⟩
  · rintro ⟨hmask, hset, hframe⟩ i h
    cases i with
    | configure ks => exact hmask (decode_eq_configure_iff.mp h).1
    | setGeometry => exact hset (decode_eq_setGeometry_iff.mp h)
    | processFrame => exact hframe (decode_eq_processFrame_iff.mp h)

/-- Settles O1, row by row; the mask of the last two rows is the whole word. -/
theorem decodeFollowsTheOpcodeMap : Obligations.DecodeFollowsTheOpcodeMap := by
  intro w
  have hmask : w &&& 0xFFFFFFFF#32 = w := BitVec.and_allOnes
  rw [hmask]
  exact ⟨fun _ => decode_eq_configure_iff, decode_eq_setGeometry_iff, decode_eq_processFrame_iff,
    decode_eq_error_iff⟩

/-- Settles O3: the decoder, run on each word. -/
theorem specCommandWordsDecode : Obligations.SpecCommandWordsDecode := by
  unfold Obligations.SpecCommandWordsDecode
  decide

/-! ### The completion of an illegal word (30_encoding.md R60) -/

/-- A reserved opcode or a reserved bit makes a word illegal: the encoding of a command has neither. -/
theorem decode_error_of_reserved {w : Word}
    (h : w.toNat % 2 ^ 8 = 0 ∨ 4 ≤ w.toNat % 2 ^ 8 ∨ w.toNat / 2 ^ 10 ≠ 0 ∨
      (w.toNat % 2 ^ 8 ≠ 1 ∧ w.toNat / 2 ^ 8 % 4 ≠ 0)) :
    ∃ e, decode w = .error e := by
  cases hd : decode w with
  | error e => exact ⟨e, rfl⟩
  | ok i =>
    exfalso
    obtain ⟨-, rfl⟩ := encode_of_decode hd
    rw [← opField_toNat, ← rsvField_toNat, ← ksField_toNat] at h
    cases i <;> simp [encode] at h

theorem step_of_engine_illegal {s : State} {e : Illegal} {rest : List Turn} (hb : s.busy = true)
    (hd : decode s.latch.cmd = .error e) (h : s.turns = .engine :: rest) :
    step s = .next (State.finished { s with turns := rest } 0x01#8) :=
  (step_of_cons h).trans (engineStep_of_error hb hd)

/-- The write of an illegal word to `CMD` and the engine's turn after it: acceptance, then the bare completion. -/
theorem run_illegal_command {s : State} {w : Word} {rest : List Turn} {e : Illegal} (hb : s.busy = false)
    (hreset : s.inReset = false) (hd : decode w = .error e)
    (hturns : s.turns = .host (.regWrite 0x10#8 w 0xF#4) :: .engine :: rest) :
    Sys2Proof.core.run 2 s = .next
      (State.finished
        { s with
          turns := rest
          latch := { cmd := w, arg0 := s.arg0, arg1 := s.arg1, arg2 := s.arg2 }
          disturbed := false
          reply := .done } 0x01#8) := by
  have haccept := acceptanceLatchesWordAndArguments s w _ hreset hb hturns
  exact (core_run_succ haccept 1).trans (core_run_succ (step_of_engine_illegal rfl hd rfl) 0)

/-- Settles O6 by `run_illegal_command`, also for the worked example. -/
theorem illegalCommandCompletesWithCode1 : Obligations.IllegalCommandCompletesWithCode1 := by
  refine ⟨fun s w rest hb hreset hw hturns => ?_, ?_⟩
  · obtain ⟨e, hd⟩ := decode_error_of_reserved hw
    exact ⟨⟨_, acceptanceLatchesWordAndArguments s w _ hreset hb hturns, rfl, rfl⟩,
      run_illegal_command hb hreset hd hturns⟩
  · have hd : decode 0x00000004#32 = .error .reservedOpcode := by decide
    exact ⟨_, run_illegal_command rfl rfl hd rfl, by decide, by decide⟩

end Sys2Proof.Machine
end

section
/-! PROOF. The tables (40_lut_linearizer.md R65 to R72): what the patterns of `FWD` stand for, that a lookup by
ranges rises with the ranges, and the round trip through both. -/

namespace Sys2Proof.Machine

/-! ### The forward table -/

/-- A pattern below that of infinity stands for a non-negative finite value. -/
theorem Fp.ofParts_of_lt {n maxExponent : Nat} {f : Format} {w : BitVec (1 + n)}
    (hmax : maxExponent * 2 ^ (f.precision - 1) ≤ 2 ^ n) (h : w.toNat < maxExponent * 2 ^ (f.precision - 1)) :
    Fp.ofParts f w.msb (w.extractLsb' 0 n).toNat maxExponent = .finite false (unitsOfBits f.precision w.toNat) := by
  have hlt : w.toNat < 2 ^ n := h.trans_le hmax
  have hmsb : w.msb = false := by
    rw [BitVec.msb_eq_false_iff_two_mul_lt, pow_add]
    omega
  have hrest : (w.extractLsb' 0 n).toNat = w.toNat := by
    simpa using Nat.mod_eq_of_lt hlt
  have hexp : w.toNat / 2 ^ (f.precision - 1) ≠ maxExponent :=
    (Nat.div_lt_of_lt_mul (Nat.mul_comm _ _ ▸ h)).ne
  rw [hmsb, hrest, Fp.ofParts, if_neg hexp]

theorem Fp.ofBits64_of_lt {w : BitVec 64} (h : w.toNat < 0x7FF0000000000000) :
    Fp.ofBits64 w = .finite false (unitsOfBits 53 w.toNat) :=
  Fp.ofParts_of_lt (n := 63) (f := .binary64) (by decide) h

/-- `FWD[i]` in units. -/
def fwdUnits (i : Nat) : Nat := unitsOfBits 53 (fwdBits i).toNat

/-- Every entry is positive, finite and normal: its exponent field is neither all zeros nor all ones. -/
theorem fwdBits_normal : ∀ i : Nat, i < 256 →
    0x0010000000000000 ≤ (fwdBits i).toNat ∧ (fwdBits i).toNat < 0x7FF0000000000000 := by
  decide +kernel

theorem fwd_eq {i : Nat} (h : i < 256) : fwd i = .finite false (fwdUnits i) := by
  have hclamp : (clamp i 0 255).toNat = i := by
    unfold clamp
    split_ifs <;> omega
  rw [fwd, hclamp, Fp.ofBits64_of_lt (fwdBits_normal i h).2, fwdUnits]

theorem fwdUnits_rise : ∀ i : Nat, i < 255 → 1000 * fwdUnits i + 1954 * 2 ^ 1074 ≤ 1000 * fwdUnits (i + 1) := by
  decide +kernel

theorem fwdUnits_mono {i j : Nat} (hij : i ≤ j) (hj : j < 256) : fwdUnits i ≤ fwdUnits j := by
  induction j, hij using Nat.le_induction with
  | base => exact le_rfl
  | succ j _ ih =>
    have hstep := fwdUnits_rise j (by omega)
    have := ih (by omega)
    omega

theorem nearestInteger_mono {u v : Nat} (h : u ≤ v) : nearestInteger u ≤ nearestInteger v :=
  Nat.div_le_div_right (by omega)

theorem clamp_zero_of_le {n m : Nat} (h : n ≤ m) : clamp n 0 m = n := by
  unfold clamp
  split_ifs <;> omega

/-- The last entry alone rounds past 4095: the entry before it does not, and all others are below that one. -/
theorem nearestInteger_fwdUnits : nearestInteger (fwdUnits 254) ≤ 4095 ∧ nearestInteger (fwdUnits 255) = 4096 := by
  decide +kernel

/-- Settles O30, by the size and the rise of the entries. -/
theorem forwardTableIsIncreasing : Obligations.ForwardTableIsIncreasing := by
  obtain ⟨h254, h255⟩ := nearestInteger_fwdUnits
  have hlast : Fp.roundClamped 0 5000 (fwd (255 : Nat)) = 4096 := by
    rw [fwd_eq (by decide), Fp.roundClamped, h255]
    rfl
  refine ⟨fun i hi => ⟨fwdUnits i, fwdUnits (i + 1), fwd_eq (by omega),
      mod_cast fwd_eq (i := i + 1) (by omega), fwdUnits_rise i hi⟩,
    by decide +kernel, fwdBits_normal, rfl, rfl, fun i hi => ⟨fun h => ?_, ?_⟩, hlast⟩
  · by_contra hne
    have hle : nearestInteger (fwdUnits i) ≤ 4095 :=
      (nearestInteger_mono (fwdUnits_mono (by omega : i ≤ 254) (by decide))).trans h254
    have hround : Fp.roundClamped 0 5000 (fwd i) = nearestInteger (fwdUnits i) := by
      rw [fwd_eq hi]
      exact clamp_zero_of_le (hle.trans (by decide))
    omega
  · rintro rfl
    rw [hlast]
    decide

/-! ### The inverse table -/

/-- Of two neighbouring ranges the second ends later and holds a value that is no smaller, by at most 6. -/
abbrev RangeRises (r s : Nat × Byte) : Prop := r.1 < s.1 ∧ r.2.toNat ≤ s.2.toNat ∧ s.2.toNat ≤ r.2.toNat + 6

section

variable {r : Nat × Byte} {rest : List (Nat × Byte)} {i : Nat}

theorem rangeLookup_of_le (h : i ≤ r.1) : rangeLookup (r :: rest) i = r.2 := if_pos h

theorem rangeLookup_of_lt (h : r.1 < i) : rangeLookup (r :: rest) i = rangeLookup rest i :=
  if_neg (Nat.not_le.mpr h)

theorem lt_of_rangesRise {l : List (Nat × Byte)} (h : (r :: l).IsChain RangeRises) {s : Nat × Byte} (hs : s ∈ l) :
    r.1 < s.1 := by
  induction l generalizing r with
  | nil => cases hs
  | cons t l ih =>
    obtain ⟨hrt, hchain⟩ := List.isChain_cons_cons.mp h
    rcases List.mem_cons.mp hs with rfl | hs
    · exact hrt.1
    · exact hrt.1.trans (ih hchain hs)

end

/-- The value looked up at the end of a range is that range's. -/
theorem rangeLookup_end {l : List (Nat × Byte)} (h : l.IsChain RangeRises) {s : Nat × Byte} (hs : s ∈ l) :
    rangeLookup l s.1 = s.2 := by
  induction l with
  | nil => cases hs
  | cons r l ih =>
    rcases List.mem_cons.mp hs with rfl | hl
    · exact rangeLookup_of_le le_rfl
    · rw [rangeLookup_of_lt (lt_of_rangesRise h hl)]
      exact ih h.tail hl

/-- A lookup up to the end of some range answers the value of a range. -/
theorem rangeLookup_mem {l : List (Nat × Byte)} {i : Nat} (hi : ∃ s ∈ l, i ≤ s.1) :
    rangeLookup l i ∈ l.map Prod.snd := by
  induction l with
  | nil => simp at hi
  | cons r l ih =>
    rcases Nat.lt_or_ge r.1 i with h | h
    · rw [rangeLookup_of_lt h]
      obtain ⟨s, hs, his⟩ := hi
      rcases List.mem_cons.mp hs with rfl | hs
      · omega
      · exact List.mem_cons_of_mem _ (ih ⟨s, hs, his⟩)
    · rw [rangeLookup_of_le h]
      exact List.mem_cons_self

/-- From one index to the next the lookup stays in its range or goes on to the neighbour. -/
theorem rangeLookup_succ {l : List (Nat × Byte)} (h : l.IsChain RangeRises) {i : Nat} (hi : ∃ s ∈ l, i + 1 ≤ s.1) :
    (rangeLookup l i).toNat ≤ (rangeLookup l (i + 1)).toNat ∧
      (rangeLookup l (i + 1)).toNat ≤ (rangeLookup l i).toNat + 6 := by
  induction l with
  | nil => simp at hi
  | cons r l ih =>
    rcases Nat.lt_or_ge r.1 (i + 1) with hr | hr
    · have hrest : ∃ s ∈ l, i + 1 ≤ s.1 := by
        obtain ⟨s, hs, his⟩ := hi
        rcases List.mem_cons.mp hs with rfl | hs
        · omega
        · exact ⟨s, hs, his⟩
      rw [rangeLookup_of_lt hr]
      rcases Nat.lt_or_ge r.1 i with hri | hri
      · rw [rangeLookup_of_lt hri]
        exact ih h.tail hrest
      · rw [rangeLookup_of_le hri]
        cases l with
        | nil => simp at hrest
        | cons t l =>
          obtain ⟨⟨hend, hvalue⟩, -⟩ := List.isChain_cons_cons.mp h
          rwa [rangeLookup_of_le (by omega : i + 1 ≤ t.1)]
    · rw [rangeLookup_of_le hr, rangeLookup_of_le (by omega)]
      omega

/-- A lookup past the ends of the first ranges goes on behind them. -/
theorem rangeLookup_append_of_lt {a b : List (Nat × Byte)} {i : Nat} (h : ∀ s ∈ a, s.1 < i) :
    rangeLookup (a ++ b) i = rangeLookup b i := by
  induction a with
  | nil => rfl
  | cons r a ih =>
    obtain ⟨hr, ha⟩ := List.forall_mem_cons.mp h
    exact (rangeLookup_of_lt hr).trans (ih ha)

/-- A lookup up to an end of the first ranges stays in them. -/
theorem rangeLookup_append_of_le {a b : List (Nat × Byte)} {i : Nat} (h : ∃ s ∈ a, i ≤ s.1) :
    rangeLookup (a ++ b) i = rangeLookup a i := by
  induction a with
  | nil => simp at h
  | cons r a ih =>
    rcases Nat.lt_or_ge r.1 i with hr | hr
    · obtain ⟨s, hs, his⟩ := h
      rcases List.mem_cons.mp hs with rfl | hs
      · omega
      · rw [List.cons_append, rangeLookup_of_lt hr, rangeLookup_of_lt hr]
        exact ih ⟨s, hs, his⟩
    · exact (rangeLookup_of_le hr).trans (rangeLookup_of_le hr).symm

/-- Where the last of the first ranges ends, the lookup parts. -/
theorem rangeLookup_append {a b : List (Nat × Byte)} {last : Nat} (i : Nat) (hmem : ∃ s ∈ a, last = s.1)
    (hle : ∀ s ∈ a, s.1 ≤ last) :
    rangeLookup (a ++ b) i = if i ≤ last then rangeLookup a i else rangeLookup b i := by
  split_ifs with h
  · obtain ⟨s, hs, rfl⟩ := hmem
    exact rangeLookup_append_of_le ⟨s, hs, h⟩
  · exact rangeLookup_append_of_lt fun s hs => (hle s hs).trans_lt (Nat.not_le.mp h)

/-- `INV` by the four parts of its table. -/
theorem inv_by_parts (i : Nat) : inv i =
    if i ≤ 230 then rangeLookup invRanges0 i else if i ≤ 957 then rangeLookup invRanges1 i
    else if i ≤ 2263 then rangeLookup invRanges2 i else rangeLookup invRanges3 i := by
  rw [inv, invTable, List.append_assoc, List.append_assoc,
    rangeLookup_append i (last := 230) (by decide) (by decide),
    rangeLookup_append i (last := 957) (by decide) (by decide),
    rangeLookup_append i (last := 2263) (by decide) (by decide)]

theorem invTable_rises : invTable.IsChain RangeRises := by
  decide +kernel

/-- The last range ends at the last index. -/
theorem invTable_covers {i : Nat} (h : i < 4096) : ∃ s ∈ invTable, i ≤ s.1 :=
  ⟨(4095, 255#8), by decide +kernel, by omega⟩

theorem invTable_ends_lt : ∀ s ∈ invTable, s.1 < 4096 := by
  decide +kernel

theorem inv_succ {i : Nat} (h : i < 4095) :
    (inv i).toNat ≤ (inv (i + 1)).toNat ∧ (inv (i + 1)).toNat ≤ (inv i).toNat + 6 :=
  rangeLookup_succ invTable_rises (invTable_covers (by omega))

theorem inv_mono {i j : Nat} (hij : i ≤ j) (hj : j < 4096) : (inv i).toNat ≤ (inv j).toNat := by
  induction j, hij using Nat.le_induction with
  | base => exact le_rfl
  | succ j _ ih => exact (ih (by omega)).trans (inv_succ (by omega)).1

/-- `INV` takes the values of its ranges. -/
theorem exists_inv_eq_iff (v : Byte) : (∃ i, i < 4096 ∧ inv i = v) ↔ v ∈ invTable.map Prod.snd := by
  constructor
  · rintro ⟨i, hi, rfl⟩
    exact rangeLookup_mem (invTable_covers hi)
  · intro hv
    obtain ⟨s, hs, rfl⟩ := List.mem_map.mp hv
    exact ⟨s.1, invTable_ends_lt s hs, rangeLookup_end invTable_rises hs⟩

/-- The values of the ranges: every byte but seven, each in one range. -/
theorem invTable_values : invTable.map Prod.snd =
    ((List.range 256).filter (· ∉ [1, 2, 3, 4, 5, 7, 10])).map (BitVec.ofNat 8) := by
  decide +kernel

theorem mem_invTable_values (v : Byte) :
    v ∈ invTable.map Prod.snd ↔ v ∉ [1#8, 2#8, 3#8, 4#8, 5#8, 7#8, 10#8] := by
  have hmem : v ∈ invTable.map Prod.snd ↔ v.toNat ∉ [1, 2, 3, 4, 5, 7, 10] := by
    simp only [invTable_values, List.mem_map, List.mem_filter, List.mem_range, decide_eq_true_eq]
    constructor
    · rintro ⟨n, ⟨hn, hne⟩, rfl⟩
      rwa [BitVec.toNat_ofNat, Nat.mod_eq_of_lt hn]
    · exact fun h => ⟨v.toNat, ⟨v.isLt, h⟩, by simp⟩
  rw [hmem]
  simp [← BitVec.toNat_inj]

/-- Settles O31, by the rise of the ranges and their values. -/
theorem inverseTableIsNonDecreasing : Obligations.InverseTableIsNonDecreasing :=
  ⟨fun _ => inv_succ, by decide +kernel, by decide +kernel, by decide +kernel, by decide +kernel,
    fun v => (exists_inv_eq_iff v).trans (mem_invTable_values v)⟩

/-! ### The round trip -/

theorem invOfAccumulator_finite (u : Nat) :
    invOfAccumulator (.finite false u) = inv (min (nearestInteger u) 4095) := by
  have hround : Fp.roundClamped 0 4095 (.finite false u) = min (nearestInteger u : Int) 4095 := clamp_zero_4095 _
  rw [invOfAccumulator, hround]
  congr 1
  omega

theorem invOfAccumulator_mono {u v : Nat} (h : u ≤ v) :
    (invOfAccumulator (.finite false u)).toNat ≤ (invOfAccumulator (.finite false v)).toNat := by
  rw [invOfAccumulator_finite, invOfAccumulator_finite]
  exact inv_mono (min_le_min_right _ (nearestInteger_mono h)) (by omega)

theorem roundTrip_ofNat {v : Nat} (h : v < 256) :
    roundTrip (BitVec.ofNat 8 v) = invOfAccumulator (.finite false (fwdUnits v)) := by
  rw [roundTrip, BitVec.toNat_ofNat, Nat.mod_eq_of_lt h, fwd_eq h]

/-- The round trip against its argument, entry by entry. -/
theorem roundTrip_pointwise : ∀ v : Nat, v < 256 →
    v ≤ (roundTrip (BitVec.ofNat 8 v)).toNat ∧ (roundTrip (BitVec.ofNat 8 v)).toNat ≤ v + 25 ∧
      ((roundTrip (BitVec.ofNat 8 v)).toNat = v ↔ v = 255) ∧
      ((roundTrip (BitVec.ofNat 8 v)).toNat ≤ v + 2 ↔ 235 ≤ v) := by
  intro v hv
  rw [roundTrip_ofNat hv, invOfAccumulator_finite, inv_by_parts]
  revert v
  decide +kernel

/-- Settles O32: the round trip rises because both tables and the rounding between them do. -/
theorem roundTripBounds : Obligations.RoundTripBounds := by
  refine ⟨fun v hv => ?_, roundTrip_pointwise, by decide +kernel, by decide +kernel⟩
  rw [roundTrip_ofNat (by omega), roundTrip_ofNat (by omega)]
  exact invOfAccumulator_mono (fwdUnits_mono (Nat.le_succ v) (by omega))

end Sys2Proof.Machine
end

section
/-! PROOF. How far the rounded operations on non-negative values stay from the exact ones (00_scope.md R11), in
real numbers. -/

namespace Sys2Proof.Machine

/-! ### One rounding -/

/-- Both ends of the cell are representable, so the nearest value is within half of its width. -/
theorem two_mul_roundUnits_error_le {p den : Nat} (num : Nat) (hp : 1 ≤ p) (hd : 1 ≤ den) :
    2 * |(roundUnits p num den : ℝ) - num / den| ≤ 2 ^ spacingExponent p num den := by
  have hpos : (0 : ℝ) < den := by exact_mod_cast hd
  have hlt := @lowerSignificand_lt p num den
  have hbelow := roundUnits_nearest_real (num := num) hp hd
    (representable_mul_two_pow hp hlt.le (spacingExponent p num den))
  have habove := roundUnits_nearest_real (num := num) hp hd
    (representable_mul_two_pow hp (Nat.succ_le_of_lt hlt) (spacingExponent p num den))
  have hlow : ((lowerSignificand p num den * 2 ^ spacingExponent p num den : Nat) : ℝ) ≤ num / den := by
    rw [le_div_iff₀ hpos]
    exact_mod_cast lowerSignificand_mul_le p num den
  have hhigh : (num : ℝ) / den ≤ (((lowerSignificand p num den).succ * 2 ^ spacingExponent p num den : Nat) : ℝ) := by
    rw [div_le_iff₀ hpos]
    exact_mod_cast (lt_lowerSignificand_succ_mul p num hd).le
  have hwidth : (((lowerSignificand p num den).succ * 2 ^ spacingExponent p num den : Nat) : ℝ) =
      (lowerSignificand p num den * 2 ^ spacingExponent p num den : Nat) + 2 ^ spacingExponent p num den := by
    push_cast
    ring
  rw [abs_of_nonpos (sub_nonpos.mpr hlow)] at hbelow
  rw [abs_of_nonneg (sub_nonneg.mpr hhigh)] at habove
  linarith

/-- The spacing is a unit, or what `p` bits resolve of the value. -/
theorem spacing_le (p num : Nat) {den : Nat} (hp : 1 ≤ p) (hd : 1 ≤ den) :
    (2 : ℝ) ^ spacingExponent p num den ≤ 1 + 2 * (num / den / 2 ^ p) := by
  have hpos : (0 : ℝ) < den := by exact_mod_cast hd
  rcases lowerSignificand_full (num := num) (den := den) hp with he | hfull
  · rw [he, pow_zero]
    exact le_add_of_nonneg_right (by positivity)
  · have hlow : (2 : ℝ) ^ (p - 1) * 2 ^ spacingExponent p num den ≤ num / den := by
      rw [le_div_iff₀ hpos]
      exact_mod_cast (Nat.mul_le_mul_right _ (Nat.mul_le_mul_right _ hfull)).trans
        (lowerSignificand_mul_le p num den)
    have hspacing : (2 : ℝ) ^ spacingExponent p num den ≤ 2 * (num / den / 2 ^ p) := by
      rw [← Nat.sub_add_cancel hp, pow_succ, ← mul_div_assoc, le_div_iff₀ (by positivity), Nat.sub_add_cancel hp]
      linarith
    linarith

/-- A rounding errs by half a unit of the last of `p` bits, and half of the smallest subnormal. -/
theorem roundUnits_error_le {p den : Nat} (num : Nat) (hp : 1 ≤ p) (hd : 1 ≤ den) :
    |(roundUnits p num den : ℝ) - num / den| ≤ num / den / 2 ^ p + 1 / 2 := by
  linarith [two_mul_roundUnits_error_le num hp hd, spacing_le p num hp hd]

/-! ### Values -/

/-- The real number a non-negative finite value is; 0 for every other. -/
noncomputable def Fp.value {f : Format} : Fp f → ℝ
  | .finite false u => u / 2 ^ f.scale
  | _ => 0

/-- A finite value that is not negative, of which `Fp.value` speaks. -/
def Fp.Nonneg {f : Format} (a : Fp f) : Prop := ∃ u, a = .finite false u

/-- Such a value, at most `e` away from `x`. -/
def Fp.Within {f : Format} (a : Fp f) (x e : ℝ) : Prop := a.Nonneg ∧ |a.value - x| ≤ e

section

variable {f : Format} {a : Fp f} {x e : ℝ}

theorem Fp.value_finite (u : Nat) : (Fp.finite false u : Fp f).value = u / 2 ^ f.scale := rfl

theorem Fp.value_nonneg (a : Fp f) : 0 ≤ a.value := by
  unfold Fp.value
  split
  · positivity
  · exact le_rfl

theorem Fp.zero_within : (Fp.finite false 0 : Fp f).Within 0 0 := ⟨⟨0, rfl⟩, by simp [Fp.value_finite]⟩

theorem Fp.Within.le_add (h : a.Within x e) : a.value ≤ x + e := by linarith [(abs_le.mp h.2).2]

theorem Fp.Within.sub_le (h : a.Within x e) : x - e ≤ a.value := by linarith [(abs_le.mp h.2).1]

theorem Format.one_le_precision (f : Format) : 1 ≤ f.precision := one_le_two.trans f.two_le_precision

theorem Fp.round_of_lt {c : Bool} {num den : Nat} (h : roundUnits f.precision num den < 2 ^ f.topExp) :
    Fp.round f c num den = .finite c (roundUnits f.precision num den) := if_pos h

theorem Fp.round_zero (c : Bool) {den : Nat} (hd : 1 ≤ den) : Fp.round f c 0 den = .finite c 0 := by
  have hp := f.one_le_precision
  have hzero : roundUnits f.precision 0 den = 0 :=
    Nat.le_zero.mp (roundUnits_le hp hd (representable_zero _) (Nat.zero_le _))
  rw [Fp.round_of_lt (by rw [hzero]; exact Nat.two_pow_pos _), hzero]

/-- One rounding of `x = num / den`, far from the largest finite value. -/
theorem Fp.round_within {num den : Nat} (hd : 1 ≤ den) (hx : (num : ℝ) / den = x * 2 ^ f.scale)
    (hle : x ≤ 2 ^ 100) :
    (Fp.round f false num den).Within x (x / 2 ^ f.precision + 1 / 2 ^ (f.scale + 1)) := by
  have hp := f.one_le_precision
  have hpos : (0 : ℝ) < den := by exact_mod_cast hd
  have hfit : roundUnits f.precision num den < 2 ^ f.topExp := by
    have hnum : num ≤ 2 ^ (100 + f.scale) * den := by
      rw [← Nat.cast_le (α := ℝ), Nat.cast_mul, ← div_le_iff₀ hpos, hx, Nat.cast_pow, Nat.cast_ofNat, pow_add]
      gcongr
    refine (roundUnits_le hp hd (representable_two_pow hp _) hnum).trans_lt (pow_lt_pow_right₀ one_lt_two ?_)
    cases f <;> decide
  have herr := roundUnits_error_le num hp hd
  rw [hx] at herr
  rw [Fp.round_of_lt hfit]
  refine ⟨⟨_, rfl⟩, ?_⟩
  have hscale : (0 : ℝ) < 2 ^ f.scale := by positivity
  have hdiff : (roundUnits f.precision num den : ℝ) / 2 ^ f.scale - x =
      (roundUnits f.precision num den - x * 2 ^ f.scale) / 2 ^ f.scale := by
    field_simp
  rw [Fp.value_finite, hdiff, abs_div, abs_of_pos hscale, div_le_iff₀ hscale]
  refine herr.trans_eq ?_
  rw [pow_succ]
  field_simp

end

/-! ### The operations of binary64, on values up to `2^14` -/

section

variable {a b : Fp .binary64} {x s d e : ℝ}

/-- What one rounding of a value up to `2^14` errs by at most. -/
noncomputable def roundError : ℝ := 1 / 2 ^ 38

theorem roundError_pos : 0 < roundError := by
  unfold roundError
  positivity

theorem Fp.round_within_roundError {num den : Nat} (hd : 1 ≤ den) (hx : (num : ℝ) / den = x * 2 ^ 1074)
    (hle : x ≤ 2 ^ 14) : (Fp.round .binary64 false num den).Within x roundError := by
  have hround := Fp.round_within (f := .binary64) hd hx (hle.trans (pow_le_pow_right₀ one_le_two (by decide)))
  refine ⟨hround.1, hround.2.trans ?_⟩
  have hhalf : (1 : ℝ) / 2 ^ (1074 + 1) ≤ 1 / 2 ^ 39 :=
    one_div_le_one_div_of_le (by positivity) (pow_le_pow_right₀ one_le_two (by decide))
  have hrel : x / 2 ^ 53 ≤ (1 : ℝ) / 2 ^ 39 := by
    rw [div_le_div_iff₀ (by positivity) (by positivity)]
    linarith
  calc x / 2 ^ 53 + 1 / 2 ^ (1074 + 1) ≤ (1 : ℝ) / 2 ^ 39 + 1 / 2 ^ 39 := add_le_add hrel hhalf
    _ = roundError := by norm_num [roundError]

theorem Fp.add_within (ha : a.Nonneg) (hb : b.Nonneg) (hle : a.value + b.value ≤ 2 ^ 14) :
    (a.add b).Within (a.value + b.value) roundError := by
  obtain ⟨u, rfl⟩ := ha
  obtain ⟨v, rfl⟩ := hb
  rw [Fp.add_finite, if_pos rfl]
  refine Fp.round_within_roundError le_rfl ?_ hle
  rw [Fp.value_finite, Fp.value_finite, ← add_div, Nat.cast_add, Nat.cast_one, div_one]
  exact (div_mul_cancel₀ _ (by positivity)).symm

theorem Fp.mul_within (ha : a.Nonneg) (hb : b.Nonneg) (hle : a.value * b.value ≤ 2 ^ 14) :
    (a.mul b).Within (a.value * b.value) roundError := by
  obtain ⟨u, rfl⟩ := ha
  obtain ⟨v, rfl⟩ := hb
  rw [Fp.mul_finite]
  refine Fp.round_within_roundError Nat.one_le_two_pow ?_ hle
  rw [Fp.value_finite, Fp.value_finite, Nat.cast_mul, Nat.cast_pow, Nat.cast_ofNat, div_mul_div_comm, ← div_div]
  exact (div_mul_cancel₀ _ (by positivity)).symm

theorem Fp.div_within (ha : a.Nonneg) (hb : b.Nonneg) (hpos : 0 < b.value) (hle : a.value / b.value ≤ 2 ^ 14) :
    (a.div b).Within (a.value / b.value) roundError := by
  obtain ⟨u, rfl⟩ := ha
  obtain ⟨v, rfl⟩ := hb
  have hv : v ≠ 0 := by
    rintro rfl
    simp [Fp.value_finite] at hpos
  rw [Fp.div_finite _ _ _ hv]
  refine Fp.round_within_roundError (Nat.one_le_iff_ne_zero.mpr hv) ?_ hle
  rw [Fp.value_finite, Fp.value_finite, div_div_div_cancel_right₀ (by positivity), Nat.cast_mul, Nat.cast_pow,
    Nat.cast_ofNat, mul_div_right_comm]
  rfl

/-- A sum in sequence: each term adds its own error and that of one rounding. -/
theorem foldl_add_within {α : Type} {g : α → Fp .binary64} {x : α → ℝ} (l : List α)
    (hg : ∀ i ∈ l, (g i).Within (x i) e) {acc : Fp .binary64} (hacc : acc.Within s d)
    (hle : s + d + ((l.map x).sum + l.length * (e + roundError)) ≤ 2 ^ 14) :
    (l.foldl (fun acc i => acc.add (g i)) acc).Within (s + (l.map x).sum) (d + l.length * (e + roundError)) := by
  induction l generalizing acc s d with
  | nil => simpa using hacc
  | cons i l ih =>
    obtain ⟨hi, hl⟩ := List.forall_mem_cons.mp hg
    have hrest : 0 ≤ (l.map x).sum + l.length * (e + roundError) := by
      have : 0 ≤ (l.map fun i => x i + (e + roundError)).sum := by
        refine List.sum_nonneg fun y hy => ?_
        obtain ⟨i, hi, rfl⟩ := List.mem_map.mp hy
        linarith [(hl i hi).le_add, (g i).value_nonneg, roundError_pos]
      simpa [List.sum_map_add, mul_add] using this
    rw [List.map_cons, List.sum_cons, List.length_cons, Nat.cast_succ] at hle ⊢
    have hstep : (acc.add (g i)).Within (s + x i) (d + (e + roundError)) := by
      have hround := Fp.add_within hacc.1 hi.1 (by linarith [hacc.le_add, hi.le_add, roundError_pos])
      refine ⟨hround.1, ?_⟩
      rw [abs_le]
      constructor <;> linarith [abs_le.mp hround.2, abs_le.mp hacc.2, abs_le.mp hi.2]
    have hfold := ih hl hstep (by linarith)
    rw [List.foldl_cons]
    convert hfold using 1 <;> ring

end

/-! ### Between the formats -/

section

variable {a : Fp .binary32} {b : Fp .binary64}

theorem Fp.Nonneg.widen (ha : a.Nonneg) : a.widen.Nonneg := by
  obtain ⟨u, rfl⟩ := ha
  exact ⟨_, rfl⟩

theorem Fp.value_widen (ha : a.Nonneg) : a.widen.value = a.value := by
  obtain ⟨u, rfl⟩ := ha
  rw [Fp.widen, Fp.value_finite, Fp.value_finite, Nat.cast_mul, Nat.cast_pow, Nat.cast_ofNat]
  have hscale : (2 : ℝ) ^ Format.binary64.scale = 2 ^ Format.binary32.scale * 2 ^ 925 := by
    rw [← pow_add]
    rfl
  rw [hscale]
  exact mul_div_mul_right _ _ (by positivity)

theorem Fp.narrow_within (hb : b.Nonneg) (hle : b.value ≤ 2 ^ 100) :
    b.narrow.Within b.value (b.value / 2 ^ 24 + 1 / 2 ^ 150) := by
  obtain ⟨u, rfl⟩ := hb
  rw [Fp.narrow_finite]
  refine Fp.round_within (f := .binary32) (num := u) (den := 2 ^ 925) (Nat.succ_le_of_lt (by positivity)) ?_ hle
  have hscale : (2 : ℝ) ^ Format.binary64.scale = 2 ^ 925 * 2 ^ Format.binary32.scale := by
    rw [← pow_add]
    rfl
  rw [Fp.value_finite, hscale, Nat.cast_pow, Nat.cast_ofNat]
  field_simp

/-- A representable value is full at its own exponent. -/
theorem Representable.eq_lowerSignificand {p u : Nat} (hp : 1 ≤ p) (hu : Representable p u) :
    u = lowerSignificand p u 1 * 2 ^ spacingExponent p u 1 := by
  have hle := lowerSignificand_mul_le p u 1
  have hlt := lt_lowerSignificand_succ_mul p u le_rfl
  have hout := hu.not_between hp (lowerSignificand_full (num := u) (den := 1) hp)
  omega

/-- What an exponent field `e` that is not 0 and a fraction `r` stand for. -/
theorem unitsOfBits_of_normal {p e r : Nat} (he : e ≠ 0) (hr : r < 2 ^ (p - 1)) :
    unitsOfBits p (e * 2 ^ (p - 1) + r) = (2 ^ (p - 1) + r) * 2 ^ (e - 1) := by
  have hdiv : (e * 2 ^ (p - 1) + r) / 2 ^ (p - 1) = e := by
    rw [Nat.add_comm, Nat.add_mul_div_right _ _ (Nat.two_pow_pos _), Nat.div_eq_of_lt hr, Nat.zero_add]
  have hmod : (e * 2 ^ (p - 1) + r) % 2 ^ (p - 1) = r := by
    rw [Nat.mul_add_mod_self_right, Nat.mod_eq_of_lt hr]
  unfold unitsOfBits
  dsimp only
  rw [hdiv, hmod, if_neg he]

/-- A representable value is read back from its exponent field and fraction. -/
theorem unitsOfBits_magnitudeBits {p u : Nat} (hp : 1 ≤ p) (hu : Representable p u) :
    unitsOfBits p (magnitudeBits p u) = u := by
  have heq := hu.eq_lowerSignificand hp
  have hlt := @lowerSignificand_lt p u 1
  have hfull := @lowerSignificand_full p u 1 hp
  generalize lowerSignificand p u 1 = q at *
  generalize spacingExponent p u 1 = e at *
  subst heq
  have hdouble : 2 ^ p = 2 ^ (p - 1) + 2 ^ (p - 1) := by
    rw [← Nat.two_mul, ← Nat.pow_succ']
    congr 1
    omega
  have hbits : magnitudeBits p (q * 2 ^ e) = e * 2 ^ (p - 1) + q := by
    unfold magnitudeBits
    dsimp only
    rw [log2_full_significand hp hlt hfull, Nat.mul_div_cancel _ (Nat.two_pow_pos _)]
  rw [hbits]
  rcases Nat.lt_or_ge q (2 ^ (p - 1)) with hq | hq
  · obtain rfl : e = 0 := hfull.resolve_right (by omega)
    simp [unitsOfBits, Nat.div_eq_of_lt hq, Nat.mod_eq_of_lt hq]
  · obtain ⟨r, rfl⟩ := Nat.exists_eq_add_of_le hq
    have hr : r < 2 ^ (p - 1) := by omega
    rw [← Nat.add_assoc, ← Nat.succ_mul, unitsOfBits_of_normal (Nat.succ_ne_zero e) hr, Nat.succ_sub_one]

/-- A finite binary32 value is below the pattern of infinity. -/
theorem magnitudeBits_lt {u : Nat} (hu : u < 2 ^ Format.binary32.topExp) : magnitudeBits 24 u < 255 * 2 ^ 23 := by
  have hq := @lowerSignificand_lt 24 u 1
  have htop : Format.binary32.topExp = 277 := rfl
  have hlog : u.log2 < Format.binary32.topExp := by
    rcases Nat.eq_zero_or_pos u with rfl | hpos
    · simp [htop]
    · exact (Nat.log2_lt hpos.ne').mpr hu
  rw [lowerSignificand, spacingExponent, Nat.div_one, Nat.one_mul] at hq
  unfold magnitudeBits
  dsimp only
  omega

theorem Fp.ofBits32_of_lt {w : Word} (h : w.toNat < 0x7F800000) :
    Fp.ofBits32 w = .finite false (unitsOfBits 24 w.toNat) :=
  Fp.ofParts_of_lt (n := 31) (f := .binary32) (by decide) h

/-- What binary32 holds is read back from its pattern. -/
theorem Fp.ofBits32_toBits32 {u : Nat} (hu : Representable 24 u) (hlt : u < 2 ^ Format.binary32.topExp) :
    Fp.ofBits32 (Fp.finite false u).toBits32 = .finite false u := by
  have hbits := magnitudeBits_lt hlt
  have hword : ((Fp.finite false u).toBits32).toNat = magnitudeBits 24 u := by
    rw [Fp.toBits32, BitVec.toNat_append]
    simp
    omega
  rw [Fp.ofBits32_of_lt (by omega), hword, unitsOfBits_magnitudeBits (by decide) hu]

/-- A value narrowed to binary32 is read back from its pattern. -/
theorem Fp.ofBits32_toBits32_narrow (hb : b.Nonneg) (h : b.narrow.Nonneg) :
    Fp.ofBits32 b.narrow.toBits32 = b.narrow := by
  obtain ⟨u, rfl⟩ := hb
  rw [Fp.narrow_finite] at h ⊢
  rcases Nat.lt_or_ge (roundUnits Format.binary32.precision u (2 ^ 925)) (2 ^ Format.binary32.topExp) with hfit | hbig
  · rw [Fp.round_of_lt hfit]
    exact Fp.ofBits32_toBits32 (representable_roundUnits (by decide) (Nat.succ_le_of_lt (by positivity))) hfit
  · obtain ⟨w, hw⟩ := h
    rw [Fp.round, if_neg (Nat.not_lt.mpr hbig)] at hw
    cases hw

end

end Sys2Proof.Machine
end

section
/-! PROOF. The weights of a recomputed kernel (41_kernel_cache.md R78, R81). -/

namespace Sys2Proof.Machine

/-! ### The raw weights -/

/-- A legal sigma is read as a value between 1/16 and 128. -/
theorem sigma_range {sigma : Word} (h : sigmaOk sigma = true) :
    (Fp.ofBits32 sigma).Nonneg ∧ 1 / 16 ≤ (Fp.ofBits32 sigma).value ∧ (Fp.ofBits32 sigma).value ≤ 128 := by
  obtain ⟨hlo, hhi⟩ : 0x3DCCCCCD ≤ sigma.toNat ∧ sigma.toNat ≤ 0x42C80000 := by
    simpa only [sigmaOk, Bool.and_eq_true, decide_eq_true_eq] using h
  rw [Fp.ofBits32_of_lt (by omega)]
  generalize hbits : sigma.toNat = bits at hlo hhi
  obtain ⟨e, r, hr, rfl⟩ : ∃ e r, r < 2 ^ 23 ∧ bits = e * 2 ^ 23 + r :=
    ⟨bits / 2 ^ 23, bits % 2 ^ 23, Nat.mod_lt _ (by decide), (Nat.div_add_mod' _ _).symm⟩
  have hunits : unitsOfBits 24 (e * 2 ^ 23 + r) = (2 ^ 23 + r) * 2 ^ (e - 1) := unitsOfBits_of_normal (by omega) hr
  refine ⟨⟨_, rfl⟩, ?_⟩
  have hlow : 2 ^ 145 ≤ (2 ^ 23 + r) * 2 ^ (e - 1) :=
    calc 2 ^ 145 = 2 ^ 23 * 2 ^ 122 := by decide
      _ ≤ _ := Nat.mul_le_mul (by omega) (Nat.pow_le_pow_right two_pos (by omega))
  have hhigh : (2 ^ 23 + r) * 2 ^ (e - 1) ≤ 2 ^ 156 :=
    calc _ ≤ 2 ^ 24 * 2 ^ 132 := Nat.mul_le_mul (by omega) (Nat.pow_le_pow_right two_pos (by omega))
      _ = 2 ^ 156 := by decide
  rw [hunits, Fp.value_finite, div_le_div_iff₀ (by norm_num) (by positivity), div_le_iff₀ (by positivity)]
  rw [← Nat.cast_le (α := ℝ), Nat.cast_pow, Nat.cast_ofNat] at hlow hhigh
  have hscale : Format.binary32.scale = 149 := rfl
  rw [hscale]
  constructor
  · linarith
  · linarith

/-- `t` of R78 is a positive finite value. -/
theorem sigmaSquared_pos {sigma : Word} (h : sigmaOk sigma = true) :
    ∃ t, t ≠ 0 ∧ sigmaSquared sigma = .finite false t := by
  obtain ⟨hs, hlo, hhi⟩ := sigma_range h
  have hsq := Fp.mul_within hs.widen hs.widen (by rw [Fp.value_widen hs]; nlinarith)
  rw [Fp.value_widen hs] at hsq
  obtain ⟨t, ht⟩ := hsq.1
  refine ⟨t, ?_, ht⟩
  rintro rfl
  have hzero := hsq.sub_le
  rw [ht, Fp.value_finite, roundError] at hzero
  norm_num at hzero
  nlinarith

theorem expOfNegative_zero : expOfNegative 0 = 2 ^ 1074 := by
  decide +kernel

/-- The exponential of a rounded negative value is a value of at most 1. -/
theorem expRN_round_le_one (num den : Nat) :
    ∃ u, u ≤ 2 ^ 1074 ∧ expRN (Fp.round .binary64 true num den) = .finite false u := by
  unfold Fp.round
  dsimp only
  split_ifs
  · exact ⟨_, (expOfNegative_representable_le_one _).2, rfl⟩
  · exact ⟨0, Nat.zero_le _, rfl⟩

theorem value_le_one {u : Nat} (h : u ≤ 2 ^ 149) : (Fp.finite false u : Fp .binary32).value ≤ 1 := by
  rw [Fp.value_finite, div_le_one (by positivity)]
  exact_mod_cast h

/-- Narrowing keeps a bound of 1. -/
theorem narrow_le_one {u : Nat} (h : u ≤ 2 ^ 1074) :
    (Fp.finite false u : Fp .binary64).narrow.Nonneg ∧ (Fp.finite false u : Fp .binary64).narrow.value ≤ 1 := by
  have hle : roundUnits Format.binary32.precision u (2 ^ 925) ≤ 2 ^ 149 :=
    roundUnits_le (by decide) (Nat.succ_le_of_lt (by positivity)) (representable_two_pow (by decide) _)
      (h.trans_eq (by rw [← pow_add]))
  have hfit : roundUnits Format.binary32.precision u (2 ^ 925) < 2 ^ Format.binary32.topExp :=
    hle.trans_lt (Nat.pow_lt_pow_right one_lt_two (by decide))
  rw [Fp.narrow_finite, Fp.round_of_lt hfit]
  exact ⟨⟨_, rfl⟩, value_le_one hle⟩

/-- The quotient `-d ⊘ t` of R78, before its exponential. -/
theorem rawWeight_eq {sigma : Word} {t : Nat} (d : Nat) (ht : t ≠ 0) (h : sigmaSquared sigma = .finite false t) :
    rawWeight sigma d =
      (expRN (Fp.round .binary64 true (d * Format.binary64.one * 2 ^ Format.binary64.scale) t)).narrow := by
  rw [rawWeight, h, Fp.ofInteger, Fp.div_finite _ _ _ ht]
  rfl

theorem rawWeight_le_one {sigma : Word} (h : sigmaOk sigma = true) (d : Nat) :
    (rawWeight sigma d).Nonneg ∧ (rawWeight sigma d).value ≤ 1 := by
  obtain ⟨t, ht, hsq⟩ := sigmaSquared_pos h
  rw [rawWeight_eq d ht hsq]
  obtain ⟨u, hu, hexp⟩ := expRN_round_le_one (d * Format.binary64.one * 2 ^ Format.binary64.scale) t
  rw [hexp]
  exact narrow_le_one hu

/-- The raw weight of the centre is 1. -/
theorem rawWeight_zero {sigma : Word} (h : sigmaOk sigma = true) : (rawWeight sigma 0).value = 1 := by
  obtain ⟨t, ht, hsq⟩ := sigmaSquared_pos h
  have hexp : expRN (.finite true 0) = .finite false (2 ^ 1074) := by
    rw [← expOfNegative_zero]
    rfl
  have hone : (Fp.finite false (2 ^ 1074) : Fp .binary64).narrow = .finite false (2 ^ 149) := by
    decide +kernel
  rw [rawWeight_eq 0 ht hsq, Nat.zero_mul, Nat.zero_mul, Fp.round_zero _ (Nat.one_le_iff_ne_zero.mpr ht), hexp, hone,
    Fp.value_finite, Nat.cast_pow, Nat.cast_ofNat]
  exact div_self (by positivity)

/-! ### The normalised weights -/

/-- Sums differ by no more than their terms do. -/
theorem abs_sum_sub_sum_le {α : Type} {f g e : α → ℝ} (l : List α) (h : ∀ i ∈ l, |f i - g i| ≤ e i) :
    |(l.map f).sum - (l.map g).sum| ≤ (l.map e).sum := by
  induction l with
  | nil => simp
  | cons i l ih =>
    obtain ⟨hi, hl⟩ := List.forall_mem_cons.mp h
    simp only [List.map_cons, List.sum_cons, add_sub_add_comm]
    exact (abs_add_le _ _).trans (add_le_add hi (ih hl))

theorem value_le_sum {f : Format} {l : List (Fp f)} {a : Fp f} (h : a ∈ l) : a.value ≤ (l.map Fp.value).sum := by
  refine List.single_le_sum (fun x hx => ?_) _ (List.mem_map_of_mem h)
  obtain ⟨b, -, rfl⟩ := List.mem_map.mp hx
  exact b.value_nonneg

/-- The quotient of a value and a near one of about its size is near 1. -/
theorem abs_div_sub_one_le {X S e : ℝ} (hX : 1 ≤ X) (he : e ≤ 1 / 2) (h : |S - X| ≤ e) : |X / S - 1| ≤ 2 * e := by
  have hlow : 1 / 2 ≤ S := by linarith [(abs_le.mp h).1]
  have hpos : 0 < S := by linarith
  have hdiff : X / S - 1 = (X - S) / S := by field_simp
  rw [hdiff, abs_div, abs_of_pos hpos, div_le_iff₀ hpos, abs_sub_comm]
  nlinarith [abs_nonneg (S - X)]

/-- The sum that normalises the raw weights, each at most 1. -/
theorem weightSum_within {raws : List (Fp .binary32)} (hlen : raws.length ≤ 25)
    (hraws : ∀ r ∈ raws, r.Nonneg ∧ r.value ≤ 1) :
    (weightSum raws).Within (raws.map Fp.value).sum (25 * roundError) := by
  have hcount : (raws.length : ℝ) ≤ 25 := by exact_mod_cast hlen
  have herr : (raws.length : ℝ) * roundError ≤ 25 * roundError :=
    mul_le_mul_of_nonneg_right hcount roundError_pos.le
  have hsum : (raws.map Fp.value).sum ≤ raws.length := by
    have := List.sum_le_card_nsmul (raws.map Fp.value) 1 fun x hx => by
      obtain ⟨r, hr, rfl⟩ := List.mem_map.mp hx
      exact (hraws r hr).2
    simpa using this
  have hfold := foldl_add_within (g := Fp.widen) (x := Fp.value) (e := 0) raws
    (fun r hr => ⟨(hraws r hr).1.widen, by simp [Fp.value_widen (hraws r hr).1]⟩) Fp.zero_within (by
      have : roundError ≤ 1 := by norm_num [roundError]
      linarith)
  rw [zero_add, zero_add, zero_add] at hfold
  exact ⟨hfold.1, hfold.2.trans herr⟩

/-- A normalised weight: the quotient, rounded to binary64 and then to binary32. -/
theorem normalised_within {sum : Fp .binary64} {raw : Fp .binary32} (hr : raw.Nonneg) (hs : sum.Nonneg)
    (hpos : 0 < sum.value) (hle : raw.value / sum.value ≤ 2) :
    (Fp.ofBits32 (normalised sum raw)).Within (raw.value / sum.value)
      (raw.value / sum.value / 2 ^ 24 + 2 * roundError) := by
  have hdiv := Fp.div_within hr.widen hs hpos (by rw [Fp.value_widen hr]; linarith)
  rw [Fp.value_widen hr] at hdiv
  have hquot := hdiv.le_add
  have hsmall : roundError ≤ 1 := by norm_num [roundError]
  have hnarrow := Fp.narrow_within hdiv.1 (hquot.trans (by linarith))
  rw [normalised, Fp.ofBits32_toBits32_narrow hdiv.1 hnarrow.1]
  refine ⟨hnarrow.1, (abs_sub_le _ (raw.widen.div sum).value _).trans ?_⟩
  have htiny : (1 : ℝ) / 2 ^ 150 ≤ roundError / 2 := by norm_num [roundError]
  linarith [hnarrow.2, hdiv.2, roundError_pos]

/-- R81: weights normalised by the sum of raw weights, of which none exceeds 1 and one is 1, sum to `1 ± 1e-6`. -/
theorem normalised_sum_near_one {raws : List (Fp .binary32)} (hlen : raws.length ≤ 25)
    (hraws : ∀ r ∈ raws, r.Nonneg ∧ r.value ≤ 1) (hone : ∃ r ∈ raws, r.value = 1) :
    (∀ r ∈ raws, (Fp.ofBits32 (normalised (weightSum raws) r)).Nonneg) ∧
      |(raws.map fun r => (Fp.ofBits32 (normalised (weightSum raws) r)).value).sum - 1| ≤ 1 / 10 ^ 6 := by
  have hsum := weightSum_within hlen hraws
  have htotal : 1 ≤ (raws.map Fp.value).sum := by
    obtain ⟨r, hr, h⟩ := hone
    rw [← h]
    exact value_le_sum hr
  have herr : 25 * roundError ≤ 1 / 2 ^ 33 := by norm_num [roundError]
  generalize weightSum raws = S at *
  generalize hX : (raws.map Fp.value).sum = X at *
  have hlow : 1 / 2 ≤ S.value := by linarith [hsum.sub_le]
  have hpos : 0 < S.value := by linarith
  have hweight : ∀ r ∈ raws, (Fp.ofBits32 (normalised S r)).Within (r.value / S.value)
      (r.value / S.value / 2 ^ 24 + 2 * roundError) := by
    intro r hr
    refine normalised_within (hraws r hr).1 hsum.1 hpos ?_
    rw [div_le_iff₀ hpos]
    linarith [(hraws r hr).2]
  refine ⟨fun r hr => (hweight r hr).1, ?_⟩
  have hdist := abs_sum_sub_sum_le raws fun r hr => (hweight r hr).2
  have hquot := abs_div_sub_one_le htotal (by linarith) (hsum.2.trans herr)
  have hcount : (raws.length : ℝ) ≤ 25 := by exact_mod_cast hlen
  have hquots : (raws.map fun r => r.value / S.value).sum = X / S.value := by
    simp only [div_eq_mul_inv, List.sum_map_mul_right, hX]
  have herrs : (raws.map fun r => r.value / S.value / 2 ^ 24 + 2 * roundError).sum =
      X / S.value / 2 ^ 24 + raws.length * (2 * roundError) := by
    rw [List.sum_map_add, ← hquots]
    simp [div_eq_mul_inv, List.sum_map_mul_right]
  rw [hquots, herrs] at hdist
  have hround : (raws.length : ℝ) * (2 * roundError) ≤ 25 * (2 * roundError) :=
    mul_le_mul_of_nonneg_right hcount (by linarith [roundError_pos])
  generalize X / S.value = q at *
  refine (abs_sub_le _ q _).trans ?_
  linarith [(abs_le.mp hquot).2]

/-! ### The stored kernel -/

/-- The offsets `i·s + j` of `r` rows of `s` taps are the first `r·s` in order. -/
theorem flatMap_range_offsets (r s : Nat) :
    ((List.range r).flatMap fun i => (List.range s).map fun j => i * s + j) = List.range (r * s) := by
  induction r with
  | zero => simp
  | succ r ih => rw [List.range_succ, List.flatMap_append, ih, Nat.succ_mul, List.range_add, List.flatMap_singleton]

theorem taps_offsets (s : Nat) : ((taps s).map fun t => t.1 * s + t.2) = List.range (s * s) := by
  rw [← flatMap_range_offsets, taps, List.map_flatMap]
  simp only [List.map_map, Function.comp_def]

/-- What a `side × side` block of taps reads of a list is its first `side²` words. -/
theorem taps_map_getD {l : List Word} {s : Nat} (h : s * s ≤ l.length) :
    ((taps s).map fun t => l.getD (t.1 * s + t.2) 0#32) = l.take (s * s) := by
  have hmap : ((taps s).map fun t => l.getD (t.1 * s + t.2) 0#32) =
      ((taps s).map fun t => t.1 * s + t.2).map fun k => l.getD k 0#32 := by
    rw [List.map_map]
    rfl
  rw [hmap, taps_offsets]
  refine List.ext_getElem (by simpa using h) fun k hk _ => ?_
  simp only [List.length_map, List.length_range] at hk
  simp [hk.trans_le h]

theorem length_rawWeights (n : Nat) (sigma : Word) : (rawWeights n sigma).length = side n * side n := by
  rw [rawWeights, List.length_map, length_taps]

/-- What the taps of kernel size `n` read of the stored words, in order. -/
def tapWeights (n : BitVec 2) (kernel : Vector Word 25) : List (Fp .binary32) :=
  ((taps (side n.toNat)).map fun t => kernel.toList.getD (t.1 * side n.toNat + t.2) 0#32).map Fp.ofBits32

/-- The taps read the normalised weights of the recompute. -/
theorem tapWeights_kernelFor {n : BitVec 2} (hside : side n.toNat * side n.toNat ≤ 25) (sigma : Word) :
    tapWeights n (kernelFor n sigma) = (rawWeights n.toNat sigma).map fun r =>
      Fp.ofBits32 (normalised (weightSum (rawWeights n.toNat sigma)) r) := by
  have hlist : (kernelFor n sigma).toList = kernelWords n.toNat sigma := by
    simp [kernelFor]
  rw [tapWeights, taps_map_getD (by simpa using hside), hlist, kernelWords, List.take_take, Nat.min_eq_left hside,
    List.take_left' (by rw [List.length_map, length_rawWeights]), List.map_map]
  rfl

/-- R81 for the weights that the taps read of a recomputed kernel. -/
theorem tapWeights_sum_near_one {n : BitVec 2} (hn : n = 1#2 ∨ n = 2#2) {sigma : Word} (h : sigmaOk sigma = true) :
    (tapWeights n (kernelFor n sigma)).length ≤ 25 ∧ (∀ w ∈ tapWeights n (kernelFor n sigma), w.Nonneg) ∧
      |((tapWeights n (kernelFor n sigma)).map Fp.value).sum - 1| ≤ 1 / 10 ^ 6 := by
  have hside : side n.toNat * side n.toNat ≤ 25 := by
    rcases hn with rfl | rfl <;> decide
  have hlen : (rawWeights n.toNat sigma).length ≤ 25 := (length_rawWeights _ _).trans_le hside
  have hraws : ∀ r ∈ rawWeights n.toNat sigma, r.Nonneg ∧ r.value ≤ 1 := by
    intro r hr
    obtain ⟨t, -, rfl⟩ := List.mem_map.mp hr
    exact rawWeight_le_one h _
  have hone : ∃ r ∈ rawWeights n.toNat sigma, r.value = 1 := by
    have hcentre : (n.toNat, n.toNat) ∈ taps (side n.toNat) := by
      rw [mem_taps, side]
      omega
    refine ⟨_, List.mem_map_of_mem hcentre, ?_⟩
    rw [tapDistance, sub_self]
    exact rawWeight_zero h
  obtain ⟨hnonneg, hsum⟩ := normalised_sum_near_one hlen hraws hone
  rw [tapWeights_kernelFor hside, List.length_map, List.map_map]
  exact ⟨hlen, List.forall_mem_map.mpr hnonneg, hsum⟩

end Sys2Proof.Machine
end

section
/-! PROOF. The output over a uniform footprint (40_lut_linearizer.md R98). -/

namespace Sys2Proof.Machine

/-- The accumulator of R89 where every sample is `a`. -/
def uniformSum (a : Fp .binary64) (ws : List (Fp .binary32)) : Fp .binary64 :=
  ws.foldl (fun acc w => acc.add (a.mul w.widen)) (.finite false 0)

theorem State.accumulator_of_uniform {s : State} {m : Memory} {p : Sample} {v : Byte}
    (h : ∀ t ∈ taps s.kernelSide, m.read (s.address (p.tap t)) = v) :
    s.accumulator m p = uniformSum (fwd v.toNat) (tapWeights s.ksize s.kernel) := by
  rw [uniformSum, tapWeights, List.foldl_map, List.foldl_map]
  refine List.foldl_ext _ _ _ fun acc t ht => ?_
  rw [State.accumulate, h t ht]
  rfl

/-- Weights that sum to `1 ± 1e-6` leave the sum within 0.01 of the sample. -/
theorem uniformSum_within {ws : List (Fp .binary32)} {a : Fp .binary64} (hlen : ws.length ≤ 25)
    (hws : ∀ w ∈ ws, w.Nonneg) (hsum : |(ws.map Fp.value).sum - 1| ≤ 1 / 10 ^ 6) (ha : a.Nonneg)
    (hle : a.value ≤ 4096) : (uniformSum a ws).Within a.value (1 / 100) := by
  have hcount : (ws.length : ℝ) ≤ 25 := by exact_mod_cast hlen
  have herr : (ws.length : ℝ) * (roundError + roundError) ≤ 1 / 2 ^ 30 :=
    (mul_le_mul_of_nonneg_right hcount (by linarith [roundError_pos])).trans (by norm_num [roundError])
  have hproduct : ∀ w ∈ ws, (a.mul w.widen).Within (a.value * w.value) roundError := by
    intro w hw
    have hone := value_le_sum hw
    rw [← Fp.value_widen (hws w hw)] at hone ⊢
    exact Fp.mul_within ha (hws w hw).widen (by nlinarith [a.value_nonneg, (abs_le.mp hsum).2])
  have htotal : (ws.map fun w => a.value * w.value).sum = a.value * (ws.map Fp.value).sum :=
    List.sum_map_mul_left ..
  have hscaled : |a.value * (ws.map Fp.value).sum - a.value| ≤ 4096 * (1 / 10 ^ 6) := by
    rw [← mul_sub_one, abs_mul, abs_of_nonneg a.value_nonneg]
    exact mul_le_mul hle hsum (abs_nonneg _) (by norm_num)
  have hfold := foldl_add_within ws hproduct Fp.zero_within (by
    rw [htotal]
    linarith [(abs_le.mp hscaled).2])
  rw [htotal, zero_add, zero_add] at hfold
  refine ⟨hfold.1, (abs_sub_le _ _ _).trans ((add_le_add hfold.2 hscaled).trans ?_)⟩
  linarith

theorem fwd_value_le {v : Nat} (hv : v < 256) : (fwd v).value ≤ 4096 := by
  have hle : fwdUnits v ≤ 4096 * 2 ^ 1074 :=
    (fwdUnits_mono (by omega : v ≤ 255) (by decide)).trans (by decide +kernel)
  rw [fwd_eq hv, Fp.value_finite, div_le_iff₀ (by positivity)]
  exact (Nat.cast_le.mpr hle).trans_eq (by rw [Nat.cast_mul, Nat.cast_pow]; rfl)

/-- No entry of `FWD` lies within 0.01 of a bound between two ranges of `INV`. -/
theorem inv_constant_near_fwd {v : Nat} (hv : v < 256) :
    invOfAccumulator (.finite false ((100 * fwdUnits v - 2 ^ 1074) / 100)) =
      invOfAccumulator (.finite false ((100 * fwdUnits v + 2 ^ 1074) / 100)) := by
  rw [invOfAccumulator_finite, invOfAccumulator_finite, inv_by_parts, inv_by_parts]
  revert v
  decide +kernel

/-- A distance of at most `one / 100` between counts of units. -/
theorem between_of_abs_sub_le {u w one : Nat} (h : |(u : ℝ) - w| * 100 ≤ one) :
    (100 * w - one) / 100 ≤ u ∧ u ≤ (100 * w + one) / 100 := by
  have hlow : 100 * w ≤ 100 * u + one := by
    rw [← Nat.cast_le (α := ℝ)]
    push_cast
    linarith [neg_abs_le ((u : ℝ) - w)]
  have hhigh : 100 * u ≤ 100 * w + one := by
    rw [← Nat.cast_le (α := ℝ)]
    push_cast
    linarith [le_abs_self ((u : ℝ) - w)]
  omega

/-- All accumulators within 0.01 of `FWD[v]` are looked up alike. -/
theorem invOfAccumulator_near_fwd {v : Nat} (hv : v < 256) {a : Fp .binary64} (h : a.Within (fwd v).value (1 / 100)) :
    invOfAccumulator a = invOfAccumulator (.finite false ((100 * fwdUnits v - 2 ^ 1074) / 100)) := by
  have hconst := inv_constant_near_fwd hv
  obtain ⟨⟨u, rfl⟩, hdist⟩ := h
  rw [fwd_eq hv, Fp.value_finite, Fp.value_finite, ← sub_div, abs_div, abs_of_pos (by positivity : (0 : ℝ) < 2 ^ _),
    div_le_div_iff₀ (by positivity) (by norm_num), one_mul] at hdist
  obtain ⟨hlow, hhigh⟩ := between_of_abs_sub_le (one := 2 ^ 1074) (hdist.trans_eq (by rw [Nat.cast_pow]; rfl))
  refine BitVec.eq_of_toNat_eq (Nat.le_antisymm ?_ (invOfAccumulator_mono hlow))
  rw [hconst]
  exact invOfAccumulator_mono hhigh

/-- Settles O29: the weights sum to about 1, so that the accumulator stays within the range of `INV` that `FWD[v]`
rounds into. -/
theorem uniformFootprintGivesTheRoundTrip : Obligations.UniformFootprintGivesTheRoundTrip := by
  intro s m p v hks hsigma hkernel huniform
  obtain ⟨hlen, hnonneg, hsum⟩ := tapWeights_sum_near_one hks hsigma
  have hfwd : (fwd v.toNat).Nonneg := ⟨_, fwd_eq v.isLt⟩
  have hacc : (s.accumulator m p).Within (fwd v.toNat).value (1 / 100) := by
    rw [State.accumulator_of_uniform huniform, hkernel]
    exact uniformSum_within hlen hnonneg hsum hfwd (fwd_value_le v.isLt)
  have hself : (fwd v.toNat).Within (fwd v.toNat).value (1 / 100) := ⟨hfwd, by norm_num⟩
  exact (invOfAccumulator_near_fwd v.isLt hacc).trans (invOfAccumulator_near_fwd v.isLt hself).symm

end Sys2Proof.Machine
end

section
/-! PROOF. The two commands that read or refill the kernel cache: `CONFIGURE` (41_kernel_cache.md R75, R77) and an
accepted `PROCESS_FRAME` that keeps its duties (42_convolution_engine.md R91, R93). -/

namespace Sys2Proof.Machine

/-! ### `CONFIGURE` -/

theorem execConfigure_rejects {ks : Nat} {s : State}
    (h : 2 < ks ∨ ¬(0x3DCCCCCD ≤ s.latch.arg0.toNat ∧ s.latch.arg0.toNat ≤ 0x42C80000)) :
    execConfigure ks s = .next (s.finished 0x02#8) :=
  execConfigure_of_bad (h.imp_right fun hout => Bool.eq_false_iff.mpr (mt sigmaOk_iff.mp hout))

theorem execConfigure_stores {ks : Nat} {s : State} (hks : ks ≤ 2)
    (hsigma : 0x3DCCCCCD ≤ s.latch.arg0.toNat ∧ s.latch.arg0.toNat ≤ 0x42C80000) :
    execConfigure ks s = .next
      (State.finished
        { s with
          dirty := s.dirty || decide (ks ≠ s.ksize.toNat ∨ s.latch.arg0 ≠ s.sigma)
          ksize := BitVec.ofNat 2 ks
          sigma := s.latch.arg0 } 0x00#8) := by
  rw [execConfigure_of_ok hks (sigmaOk_iff.mpr hsigma), Bool.decide_or]
  rfl

/-- Settles O9: the two cases of the checks, and the row of `CONFIGURE` in the opcode map. -/
theorem configureStoresOrRejects : Obligations.ConfigureStoresOrRejects :=
  ⟨fun _ _ => ⟨execConfigure_rejects, fun hks hlo hhi => execConfigure_stores hks ⟨hlo, hhi⟩⟩,
    fun _ hw => decode_eq_configure_iff.mpr ⟨hw, rfl⟩⟩

/-- `DIRTY` after `CONFIGURE`: with 0x00 it is set where a parameter differs, and with any other code it stays. -/
theorem execConfigure_dirty {ks : Nat} {s t : State} (h : execConfigure ks s = .next t) :
    (t.result = 0x02#8 ∧ t.dirty = s.dirty) ∨
      (t.ksize = BitVec.ofNat 2 ks ∧ t.sigma = s.latch.arg0 ∧
        t.dirty = (s.dirty || s.parametersDiffer ks s.latch.arg0)) := by
  rcases execConfigure_cases ks s with hc | hc <;> obtain rfl := Host.Outcome.next.inj (hc.symm.trans h)
  · exact .inl ⟨rfl, rfl⟩
  · exact .inr ⟨rfl, rfl, rfl⟩

theorem execConfigure_keeps_dirty {ks : Nat} {s t : State} (h : execConfigure ks s = .next t)
    (hs : s.dirty = true) : t.dirty = true := by
  rcases execConfigure_dirty h with ⟨-, hd⟩ | ⟨-, -, hd⟩ <;> simp [hd, hs]

/-- Accepted parameters that differ from the stored ones set `DIRTY`. -/
theorem execConfigure_sets_dirty {ks : Nat} {s t : State} (h : execConfigure ks s = .next t)
    (hok : t.result = 0x00#8) (hdiffer : ks ≠ s.ksize.toNat ∨ s.latch.arg0 ≠ s.sigma) : t.dirty = true := by
  rcases execConfigure_dirty h with ⟨hres, -⟩ | ⟨-, -, hd⟩
  · exact absurd (hres.symm.trans hok) (by decide)
  · simp [hd, State.parametersDiffer_iff.mpr hdiffer]

/-- Settles O11: a `CONFIGURE` that changed a parameter has set `DIRTY`, and the next one keeps it. -/
theorem configureNeverClearsDirty : Obligations.ConfigureNeverClearsDirty := by
  refine ⟨fun ks s t h => ⟨execConfigure_keeps_dirty h, fun hks hsigma => ?_, execConfigure_sets_dirty h⟩,
    fun ka kb s t u l ht hok hchanged hu _ _ => ?_⟩
  · rcases execConfigure_dirty h with ⟨-, hd⟩ | ⟨-, -, hd⟩
    · exact hd
    · simp [hd, State.parametersDiffer, hks, hsigma]
  · have hdiffer : ka ≠ s.ksize.toNat ∨ s.latch.arg0 ≠ s.sigma := by
      rcases execConfigure_dirty ht with ⟨hres, -⟩ | ⟨hks, hsigma, -⟩
      · exact absurd (hres.symm.trans hok) (by decide)
      · refine hchanged.imp (fun hne heq => hne ?_) fun hne heq => hne (hsigma.trans heq)
        rw [hks, heq, BitVec.ofNat_toNat, BitVec.setWidth_eq]
    have hdirty : t.dirty = true := execConfigure_sets_dirty ht hok hdiffer
    exact execConfigure_keeps_dirty hu hdirty

/-! ### An accepted `PROCESS_FRAME` -/

/-- Settles O16: the code and the registers are those of an accepted frame, and `State.convolved_read_of_kept`, with the
kernel made current, speaks of memory. -/
theorem processFrameBlursTheInterior : Obligations.ProcessFrameBlursTheInterior := by
  intro s hm hg hacc hduties hbus
  have h := execProcessFrame_of_accepted hacc
  have hcode := execProcessFrame_completed h
  rw [State.frameCode_of_accepted hacc, hbus] at hcode
  obtain ⟨hhost, hparams, hgeom, -⟩ := execProcessFrame_registers h
  have hread := State.convolved_read_of_kept (s := s.ensureKernel) (by simpa using hm) (by simpa using hg)
    (by simpa using hbus) (by simpa using State.dutyBroken_eq_false_iff.mpr hduties)
  exact ⟨_, h, hcode, hhost, hparams, hgeom, by simpa using hread⟩

end Sys2Proof.Machine
end

section
/-! PROOF. Patterns in the order of their values (10_state.md R24, 41_kernel_cache.md R76). -/

namespace Sys2Proof.Machine

theorem magnitudeBits_eq (p u : Nat) :
    magnitudeBits p u = spacingExponent p u 1 * 2 ^ (p - 1) + lowerSignificand p u 1 := by
  rw [magnitudeBits, lowerSignificand, spacingExponent, Nat.div_one, Nat.one_mul]

/-- A larger value has a larger pattern: its exponent field is larger, or its fraction at the same one. -/
theorem magnitudeBits_mono {p u v : Nat} (hp : 1 ≤ p) (h : u ≤ v) : magnitudeBits p u ≤ magnitudeBits p v := by
  have hexp : spacingExponent p u 1 ≤ spacingExponent p v 1 := by
    rw [spacingExponent, spacingExponent, Nat.div_one, Nat.div_one, Nat.log2_eq_log_two, Nat.log2_eq_log_two]
    exact Nat.sub_le_sub_right (Nat.succ_le_succ (Nat.log_mono_right h)) p
  rw [magnitudeBits_eq, magnitudeBits_eq]
  rcases Nat.lt_or_eq_of_le hexp with hlt | heq
  · have hfull : 2 ^ (p - 1) ≤ lowerSignificand p v 1 :=
      (lowerSignificand_full (num := v) (den := 1) hp).resolve_left (by omega)
    have hlow : lowerSignificand p u 1 < 2 ^ (p - 1) + 2 ^ (p - 1) := by
      rw [← Nat.two_mul, ← Nat.pow_succ', Nat.succ_eq_add_one, Nat.sub_add_cancel hp]
      exact lowerSignificand_lt
    have hfield := Nat.mul_le_mul_right (2 ^ (p - 1)) hlt
    rw [Nat.succ_mul] at hfield
    omega
  · rw [lowerSignificand, lowerSignificand, heq]
    exact Nat.add_le_add_left (Nat.div_le_div_right h) _

theorem unitsOfBits_le_iff {p a b : Nat} (hp : 1 ≤ p) : unitsOfBits p a ≤ unitsOfBits p b ↔ a ≤ b := by
  have hmono : ∀ {c d : Nat}, unitsOfBits p c ≤ unitsOfBits p d → c ≤ d := fun h => by
    simpa only [magnitudeBits_unitsOfBits hp] using magnitudeBits_mono hp h
  refine ⟨hmono, fun h => ?_⟩
  rcases Nat.le_total (unitsOfBits p a) (unitsOfBits p b) with hle | hge
  · exact hle
  · rw [Nat.le_antisymm h (hmono hge)]

/-- The patterns of the non-negative finite values are those below that of infinity. -/
theorem Fp.ofBits32_eq_finite_iff {w : Word} {u : Nat} :
    Fp.ofBits32 w = .finite false u ↔ w.toNat < 0x7F800000 ∧ u = unitsOfBits 24 w.toNat := by
  refine ⟨fun h => ?_, fun ⟨hlt, hu⟩ => hu ▸ Fp.ofBits32_of_lt hlt⟩
  have hlt : w.toNat < 0x7F800000 := by
    unfold Fp.ofBits32 Fp.ofParts at h
    split_ifs at h with hexp
    obtain ⟨hmsb, -⟩ := Fp.finite.inj h
    have hhalf : w.toNat < 2 ^ 31 := by
      rw [BitVec.msb_eq_false_iff_two_mul_lt] at hmsb
      omega
    rw [BitVec.extractLsb'_toNat, Nat.shiftRight_zero, Nat.mod_eq_of_lt hhalf, Format.precision] at hexp
    omega
  rw [Fp.ofBits32_of_lt hlt] at h
  exact ⟨hlt, (Fp.finite.inj h).2.symm⟩

/-- Settles O10: the ends of the interval of patterns are the first pattern from 0.1 on and the pattern of 100. -/
theorem sigmaCheckIsTheNumericRange : Obligations.SigmaCheckIsTheNumericRange := by
  intro w
  have hlow : unitsOfBits 24 0x3DCCCCCC * 10 < 2 ^ 149 ∧ 2 ^ 149 ≤ unitsOfBits 24 0x3DCCCCCD * 10 := by decide
  have hhigh : unitsOfBits 24 0x42C80000 = 100 * 2 ^ 149 := by decide
  have hrange : ∀ bits, 0x3DCCCCCD ≤ bits ∧ bits ≤ 0x42C80000 ↔
      2 ^ 149 ≤ 10 * unitsOfBits 24 bits ∧ unitsOfBits 24 bits ≤ 100 * 2 ^ 149 := by
    intro bits
    rw [← hhigh, unitsOfBits_le_iff (by decide)]
    refine and_congr_left fun _ => ⟨fun h => ?_, fun h => ?_⟩
    · have := (unitsOfBits_le_iff (p := 24) (by decide)).mpr h
      omega
    · by_contra hlt
      have := (unitsOfBits_le_iff (p := 24) (by decide)).mpr (by omega : bits ≤ 0x3DCCCCCC)
      omega
  refine ⟨sigmaOk_iff, sigmaOk_iff.trans ((hrange _).trans ⟨fun ⟨hlo, hhi⟩ => ?_, ?_⟩)⟩
  · have hbits : w.toNat ≤ 0x42C80000 := ((hrange _).mpr ⟨hlo, hhi⟩).2
    exact ⟨_, Fp.ofBits32_of_lt (by omega), hlo, hhi⟩
  · rintro ⟨u, hu, hlo, hhi⟩
    obtain ⟨-, rfl⟩ := Fp.ofBits32_eq_finite_iff.mp hu
    exact ⟨hlo, hhi⟩

end Sys2Proof.Machine
end

section
/-! PROOF. The words of a recomputed kernel and what runs the recompute (41_kernel_cache.md R78), and the sum of
the words (R81). -/

namespace Sys2Proof.Machine

/-! ### The words, one by one -/

theorem side_mul_self_le {n : BitVec 2} (hn : n = 1#2 ∨ n = 2#2) : side n.toNat * side n.toNat ≤ 25 := by
  rcases hn with rfl | rfl <;> decide

/-- Tap number `k` in row-major order. -/
theorem taps_getElem? {s k : Nat} (hk : k < s * s) : (taps s)[k]? = some (k / s, k % s) := by
  have hlen : k < (taps s).length := by rwa [length_taps]
  rw [List.getElem?_eq_getElem hlen]
  have hoffset : (taps s)[k].1 * s + (taps s)[k].2 = k := by
    have hmap := congrArg (·[k]?) (taps_offsets s)
    simpa [hlen, hk] using hmap
  obtain ⟨-, hcol⟩ := mem_taps.mp (List.getElem_mem hlen)
  generalize (taps s)[k] = t at hoffset hcol
  obtain ⟨i, j⟩ := t
  subst hoffset
  have hs : 0 < s := Nat.zero_lt_of_lt hcol
  simp [Nat.add_comm (i * s), Nat.add_mul_div_right _ _ hs, Nat.div_eq_of_lt hcol, Nat.mod_eq_of_lt hcol]

/-- The stored words are the normalised weights, and zeros after them. -/
theorem kernelFor_toList {n : BitVec 2} (hside : side n.toNat * side n.toNat ≤ 25) (sigma : Word) :
    (kernelFor n sigma).toList =
      (rawWeights n.toNat sigma).map (normalised (weightSum (rawWeights n.toNat sigma))) ++
        List.replicate (25 - side n.toNat * side n.toNat) 0#32 := by
  have hlist : (kernelFor n sigma).toList = kernelWords n.toNat sigma := by simp [kernelFor]
  rw [hlist, kernelWords, List.take_append, List.take_of_length_le (by simpa [length_rawWeights] using hside),
    List.length_map, length_rawWeights, List.take_replicate, Nat.min_eq_left (Nat.sub_le _ _)]

/-- Word `k` of a recomputed kernel. -/
theorem kernelFor_getElem? {n : BitVec 2} (hside : side n.toNat * side n.toNat ≤ 25) (sigma : Word) {k : Nat}
    (hk : k < 25) : (kernelFor n sigma).toList[k]? = some
      (if k < side n.toNat * side n.toNat then
        normalised (weightSum (rawWeights n.toNat sigma))
          (rawWeight sigma (tapDistance n.toNat (k / side n.toNat, k % side n.toNat)))
      else 0#32) := by
  rw [kernelFor_toList hside]
  split_ifs with h
  · rw [List.getElem?_append_left (by simpa [length_rawWeights] using h), List.getElem?_map, rawWeights,
      List.getElem?_map, taps_getElem? h]
    rfl
  · rw [List.getElem?_append_right (by simpa [length_rawWeights] using h), List.length_map, length_rawWeights,
      List.getElem?_replicate, if_pos (by omega)]

/-- The sum of R78 as two loops, over rows and columns. -/
theorem weightSum_rawWeights (n : Nat) (sigma : Word) :
    weightSum (rawWeights n sigma) = (List.range (side n)).foldl (fun acc i =>
      (List.range (side n)).foldl (fun acc j => acc.add (rawWeight sigma (tapDistance n (i, j))).widen) acc)
      (.finite false 0) := by
  simp only [weightSum, rawWeights, taps, List.foldl_map, List.foldl_flatMap]

theorem Fp.ofInteger_binary64 (neg : Bool) (n : Nat) :
    Fp.ofInteger .binary64 neg n = .finite neg (n * 2 ^ 1074) := by
  rw [Fp.ofInteger, Format.one, Format.scale]

/-! ### What runs the recompute -/

theorem State.recompute_eq (s : State) : s.recompute =
    { s with
      kernel := s.recompute.kernel
      kernelKsize := s.ksize
      dirty := false
      kernelValid := true
      recomputeCount := BitVec.ofNat 32 ((s.recomputeCount.toNat + 1) % 2 ^ 32) } := by
  have hcount : BitVec.ofNat 32 ((s.recomputeCount.toNat + 1) % 2 ^ 32) = s.recomputeCount + 1#32 := by
    apply BitVec.eq_of_toNat_eq
    simp
  rw [hcount]
  rfl

/-- A `PROCESS_FRAME` past its checks runs the recompute exactly where `DIRTY` is set. -/
theorem execProcessFrame_recomputes {s t : State} (hacc : s.FrameAccepted) (h : execProcessFrame s = .next t) :
    (s.dirty = true → SameKernel s.recompute t ∧ t.dirty = false) ∧
      (s.dirty = false → SameKernel s t ∧ t.dirty = false) := by
  have hkernel := execProcessFrame_kernel_of_accepted hacc h
  rcases s.ensureKernel_cases with ⟨hdirty, he⟩ | ⟨hclean, he⟩ <;> rw [he] at hkernel
  · exact ⟨fun _ => hkernel, fun hclean => absurd (hdirty.symm.trans hclean) (by decide)⟩
  · exact ⟨fun hdirty => absurd (hdirty.symm.trans hclean) (by decide), fun _ => hkernel⟩

/-- No command but such a `PROCESS_FRAME` touches what a recompute writes. -/
theorem exec_sameKernel {i : Instr} {s t : State} (h : exec i s = .next t) :
    (i = .processFrame ∧ s.FrameAccepted ∧ s.dirty = true) ∨ SameKernel s t := by
  cases i with
  | configure ks =>
    obtain ⟨-, -, hkernel, -⟩ := parameterCommandsFrame.1 ks s t h
    exact .inr hkernel
  | setGeometry =>
    obtain ⟨-, -, hkernel, -⟩ := parameterCommandsFrame.2 s t h
    exact .inr hkernel
  | processFrame =>
    by_cases hacc : s.FrameAccepted
    · cases hdirty : s.dirty with
      | true => exact .inl ⟨rfl, hacc, rfl⟩
      | false => exact .inr ((execProcessFrame_recomputes hacc h).2 hdirty).1
    · exact .inr (execProcessFrame_kernel_of_not_accepted hacc h).1

/-- Settles O23: the words by `kernelFor_getElem?`, the rest of the state by definition, and the commands one by
one. -/
theorem recomputeFollowsTheFormula : Obligations.RecomputeFollowsTheFormula := by
  refine ⟨fun s hks => ⟨fun k hk => ?_, s.recompute_eq⟩, fun s hacc => ?_, fun _ _ _ => exec_sameKernel⟩
  · rw [State.recompute_kernel, kernelFor_getElem? (side_mul_self_le hks) s.sigma hk, weightSum_rawWeights]
    simp only [rawWeight, Fp.ofInteger_binary64]
    rfl
  · have h := execProcessFrame_of_accepted hacc
    exact ⟨_, h, execProcessFrame_recomputes hacc h⟩

/-! ### The exact sum of the words -/

/-- Non-negative finite values are counts of units, whose sum is that of the values. -/
theorem exists_units {f : Format} {l : List (Fp f)} (h : ∀ a ∈ l, a.Nonneg) :
    ∃ units : List Nat, l = units.map (Fp.finite false) ∧ (l.map Fp.value).sum = units.sum / 2 ^ f.scale := by
  induction l with
  | nil => exact ⟨[], rfl, by simp⟩
  | cons a l ih =>
    obtain ⟨⟨u, rfl⟩, hl⟩ := List.forall_mem_cons.mp h
    obtain ⟨units, rfl, hsum⟩ := ih hl
    refine ⟨u :: units, rfl, ?_⟩
    rw [List.map_cons, List.sum_cons, hsum, Fp.value_finite, List.sum_cons, Nat.cast_add, add_div]

/-- All 25 stored words: those that the taps read, and zeros. -/
theorem kernelFor_values {n : BitVec 2} (hside : side n.toNat * side n.toNat ≤ 25) (sigma : Word) :
    (kernelFor n sigma).toList.map Fp.ofBits32 =
      tapWeights n (kernelFor n sigma) ++ List.replicate (25 - side n.toNat * side n.toNat) (.finite false 0) := by
  have hzero : Fp.ofBits32 0#32 = .finite false 0 := by decide
  rw [tapWeights_kernelFor hside, kernelFor_toList hside, List.map_append, List.map_map, List.map_replicate, hzero]
  rfl

/-- A real sum within `1e-6` of 1, in whole units. -/
theorem natAbs_sub_le_of_abs_div_sub_le {U : Nat} (h : |(U : ℝ) / 2 ^ 149 - 1| ≤ 1 / 10 ^ 6) :
    ((U : Int) - 2 ^ 149).natAbs * 10 ^ 6 ≤ 2 ^ 149 := by
  have hunits : |(U : ℝ) - 2 ^ 149| * 10 ^ 6 ≤ 2 ^ 149 := by
    have hsplit : (U : ℝ) - 2 ^ 149 = (U / 2 ^ 149 - 1) * 2 ^ 149 := by
      field_simp
    rw [hsplit, abs_mul, abs_of_pos (by positivity : (0 : ℝ) < 2 ^ 149)]
    linarith
  have hint : |(U : Int) - 2 ^ 149| * 10 ^ 6 ≤ 2 ^ 149 := by exact_mod_cast hunits
  rw [Int.abs_eq_natAbs] at hint
  omega

/-- Settles O25: the zeros after the weights add nothing to the sum of `tapWeights_sum_near_one`. -/
theorem kernelWeightsSumToOne : Obligations.KernelWeightsSumToOne := by
  intro n sigma hn h
  obtain ⟨-, hnonneg, hsum⟩ := tapWeights_sum_near_one hn h
  have hall : ∀ a ∈ (kernelFor n sigma).toList.map Fp.ofBits32, a.Nonneg := by
    rw [kernelFor_values (side_mul_self_le hn)]
    exact List.forall_mem_append.mpr ⟨hnonneg, fun a ha => ⟨0, List.eq_of_mem_replicate ha⟩⟩
  have hsame : (((kernelFor n sigma).toList.map Fp.ofBits32).map Fp.value).sum =
      ((tapWeights n (kernelFor n sigma)).map Fp.value).sum := by
    rw [kernelFor_values (side_mul_self_le hn)]
    simp [Fp.value_finite]
  obtain ⟨units, heq, hunits⟩ := exists_units hall
  rw [← hsame, hunits] at hsum
  exact ⟨units, heq, natAbs_sub_le_of_abs_div_sub_le hsum⟩

end Sys2Proof.Machine
end

section
/-! PROOF. The shape of a recomputed kernel (41_kernel_cache.md R80): it depends on the distance from the centre
alone, and a weight rises with its raw weight because every rounding on the way does. -/

namespace Sys2Proof.Machine

/-! ### Roundings rise -/

/-- Of two results in order the smaller rounds to no more: were it to round above the larger's rounding, each
would be nearer to the other's. -/
theorem roundUnits_mono {p num num' den : Nat} (hp : 1 ≤ p) (hd : 1 ≤ den) (h : num ≤ num') :
    roundUnits p num den ≤ roundUnits p num' den := by
  by_contra hlt
  have hnear := roundUnits_nearest (num := num) hp hd (representable_roundUnits (num := num') hp hd)
  have hnear' := roundUnits_nearest (num := num') hp hd (representable_roundUnits (num := num) hp hd)
  have hmul := Nat.mul_lt_mul_of_pos_right (Nat.lt_of_not_le hlt) hd
  have hne : num ≠ num' := fun heq => hlt (heq ▸ le_rfl)
  zify at hmul h
  generalize (roundUnits p num den * den : Int) = r at *
  generalize (roundUnits p num' den * den : Int) = r' at *
  omega

section

variable {f : Format} {a b s : Fp .binary64}

theorem Fp.finite_value_le_iff {u v : Nat} :
    (Fp.finite false u : Fp f).value ≤ (Fp.finite false v : Fp f).value ↔ u ≤ v := by
  rw [Fp.value_finite, Fp.value_finite, div_le_div_iff_of_pos_right (by positivity), Nat.cast_le]

/-- A result below one that rounds to a finite value rounds to a finite value, and to no more. -/
theorem Fp.round_mono {num num' den : Nat} (hd : 1 ≤ den) (h : num ≤ num')
    (hfin : (Fp.round f false num' den).Nonneg) : (Fp.round f false num den).Nonneg ∧
      (Fp.round f false num den).value ≤ (Fp.round f false num' den).value := by
  have hle := roundUnits_mono f.one_le_precision hd h
  have hlt : roundUnits f.precision num' den < 2 ^ f.topExp := by
    by_contra hbig
    obtain ⟨u, hu⟩ := hfin
    rw [Fp.round, if_neg hbig] at hu
    cases hu
  rw [Fp.round_of_lt hlt, Fp.round_of_lt (hle.trans_lt hlt), Fp.finite_value_le_iff]
  exact ⟨⟨_, rfl⟩, hle⟩

theorem Fp.div_mono (ha : a.Nonneg) (hb : b.Nonneg) (hs : s.Nonneg) (hpos : 0 < s.value) (h : a.value ≤ b.value)
    (hfin : (b.div s).Nonneg) : (a.div s).Nonneg ∧ (a.div s).value ≤ (b.div s).value := by
  obtain ⟨u, rfl⟩ := ha
  obtain ⟨v, rfl⟩ := hb
  obtain ⟨d, rfl⟩ := hs
  have hd : d ≠ 0 := by
    rintro rfl
    simp [Fp.value_finite] at hpos
  simp only [Fp.div_finite _ _ _ hd] at hfin ⊢
  exact Fp.round_mono (Nat.one_le_iff_ne_zero.mpr hd) (Nat.mul_le_mul_right _ (Fp.finite_value_le_iff.mp h)) hfin

theorem Fp.narrow_mono (ha : a.Nonneg) (hb : b.Nonneg) (h : a.value ≤ b.value) (hfin : b.narrow.Nonneg) :
    a.narrow.Nonneg ∧ a.narrow.value ≤ b.narrow.value := by
  obtain ⟨u, rfl⟩ := ha
  obtain ⟨v, rfl⟩ := hb
  simp only [Fp.narrow_finite] at hfin ⊢
  exact Fp.round_mono (Nat.succ_le_of_lt (by positivity)) (Fp.finite_value_le_iff.mp h) hfin

end

/-! ### Stored weights rise with raw weights -/

/-- A pattern that stands for a finite value, not negative, is below that of infinity. -/
theorem toNat_lt_of_nonneg {w : Word} (h : (Fp.ofBits32 w).Nonneg) : w.toNat < 0x7F800000 := by
  obtain ⟨u, hu⟩ := h
  exact (Fp.ofBits32_eq_finite_iff.mp hu).1

/-- Such patterns are in the order of their values. -/
theorem toNat_le_of_value_le {w x : Word} (hw : (Fp.ofBits32 w).Nonneg) (hx : (Fp.ofBits32 x).Nonneg)
    (h : (Fp.ofBits32 w).value ≤ (Fp.ofBits32 x).value) : w.toNat ≤ x.toNat := by
  obtain ⟨u, hu⟩ := hw
  obtain ⟨v, hv⟩ := hx
  rw [hu, hv, Fp.finite_value_le_iff] at h
  obtain ⟨-, rfl⟩ := Fp.ofBits32_eq_finite_iff.mp hu
  obtain ⟨-, rfl⟩ := Fp.ofBits32_eq_finite_iff.mp hv
  exact (unitsOfBits_le_iff (by decide)).mp h

/-- A raw weight of at most 1, normalised by a sum of at least 1/2, is a finite pattern, and no raw weight below it
gives a larger one. -/
theorem normalised_mono {sum : Fp .binary64} {raw top : Fp .binary32} (hsum : sum.Nonneg) (hhalf : 1 / 2 ≤ sum.value)
    (hraw : raw.Nonneg) (htop : top.Nonneg) (hle : raw.value ≤ top.value) (hone : top.value ≤ 1) :
    (normalised sum raw).toNat < 0x7F800000 ∧ (normalised sum raw).toNat ≤ (normalised sum top).toNat := by
  have hpos : 0 < sum.value := by linarith
  have hratio : top.value / sum.value ≤ 2 := by
    rw [div_le_iff₀ hpos]
    linarith
  have htopq := Fp.div_within htop.widen hsum hpos (by rw [Fp.value_widen htop]; linarith)
  have htopn : (top.widen.div sum).narrow.Nonneg := by
    refine (Fp.narrow_within htopq.1 (htopq.le_add.trans ?_)).1
    rw [Fp.value_widen htop]
    have : roundError ≤ 1 := by norm_num [roundError]
    linarith
  obtain ⟨hq, hqle⟩ := Fp.div_mono hraw.widen htop.widen hsum hpos
    (by rwa [Fp.value_widen hraw, Fp.value_widen htop]) htopq.1
  obtain ⟨hn, hnle⟩ := Fp.narrow_mono hq htopq.1 hqle htopn
  have hword := Fp.ofBits32_toBits32_narrow hq hn
  have htopword := Fp.ofBits32_toBits32_narrow htopq.1 htopn
  rw [← hword] at hn hnle
  rw [← htopword] at htopn hnle
  exact ⟨toNat_lt_of_nonneg hn, toNat_le_of_value_le hn htopn hnle⟩

/-! ### The stored kernel -/

theorem tapDistance_centre (n : Nat) : tapDistance n (n, n) = 0 := by simp [tapDistance]

theorem tapDistance_swap (n i j : Nat) : tapDistance n (j, i) = tapDistance n (i, j) := by
  rw [tapDistance, tapDistance, add_comm]

/-- A reflection of the rows turns `ii` of R78 into its negative. -/
theorem tapDistance_reflect_row {n i : Nat} (j : Nat) (hi : i < side n) :
    tapDistance n (side n - 1 - i, j) = tapDistance n (i, j) := by
  have hrow : ((side n - 1 - i : Nat) : Int) - n = -(i - n) := by
    rw [side] at hi ⊢
    omega
  rw [tapDistance, tapDistance, hrow, neg_sq]

theorem tapDistance_reflect_column {n j : Nat} (i : Nat) (hj : j < side n) :
    tapDistance n (i, side n - 1 - j) = tapDistance n (i, j) := by
  rw [tapDistance_swap, tapDistance_reflect_row i hj, tapDistance_swap]

/-- The sum that normalises the raw weights is at least the raw weight of the centre, but for its rounding. -/
theorem weightSum_ge_half {n : BitVec 2} (hn : n = 1#2 ∨ n = 2#2) {sigma : Word} (h : sigmaOk sigma = true) :
    (weightSum (rawWeights n.toNat sigma)).Nonneg ∧ 1 / 2 ≤ (weightSum (rawWeights n.toNat sigma)).value := by
  have hsum := weightSum_within ((length_rawWeights n.toNat sigma).trans_le (side_mul_self_le hn))
    (List.forall_mem_map.mpr fun tap _ => rawWeight_le_one h (tapDistance n.toNat tap))
  have hcentre : (n.toNat, n.toNat) ∈ taps (side n.toNat) := by
    rw [mem_taps, side]
    omega
  have hraw : rawWeight sigma 0 ∈ rawWeights n.toNat sigma :=
    List.mem_map.mpr ⟨_, hcentre, congrArg (rawWeight sigma) (tapDistance_centre n.toNat)⟩
  have htotal := value_le_sum hraw
  rw [rawWeight_zero h] at htotal
  have herr : 25 * roundError ≤ 1 / 2 := by norm_num [roundError]
  exact ⟨hsum.1, le_trans (by linarith) hsum.sub_le⟩

/-- The word that a recompute stores for the taps at distance `d` from the centre. -/
def storedWeight (n : Nat) (sigma : Word) (d : Nat) : Word :=
  normalised (weightSum (rawWeights n sigma)) (rawWeight sigma d)

theorem kernelFor_getD {n : BitVec 2} (hside : side n.toNat * side n.toNat ≤ 25) (sigma : Word) {i j : Nat}
    (hi : i < side n.toNat) (hj : j < side n.toNat) :
    (kernelFor n sigma).toList.getD (i * side n.toNat + j) 0#32 =
      storedWeight n.toNat sigma (tapDistance n.toNat (i, j)) := by
  have hk : i * side n.toNat + j < side n.toNat * side n.toNat := by
    calc i * side n.toNat + j < (i + 1) * side n.toNat := by rw [Nat.succ_mul]; omega
      _ ≤ _ := Nat.mul_le_mul_right _ hi
  have hdiv : (i * side n.toNat + j) / side n.toNat = i := by
    rw [Nat.add_comm, Nat.add_mul_div_right _ _ (by omega), Nat.div_eq_of_lt hj, Nat.zero_add]
  have hmod : (i * side n.toNat + j) % side n.toNat = j := by
    rw [Nat.mul_add_mod_self_right, Nat.mod_eq_of_lt hj]
  rw [List.getD_eq_getElem?_getD, kernelFor_getElem? hside sigma (hk.trans_le hside), if_pos hk, hdiv, hmod,
    Option.getD_some, storedWeight]

/-- No raw weight exceeds that of the centre, which is 1; so no stored weight does. -/
theorem storedWeight_le_centre {n : BitVec 2} (hn : n = 1#2 ∨ n = 2#2) {sigma : Word} (h : sigmaOk sigma = true)
    (d : Nat) : (storedWeight n.toNat sigma d).toNat < 0x7F800000 ∧
      (storedWeight n.toNat sigma d).toNat ≤ (storedWeight n.toNat sigma 0).toNat := by
  obtain ⟨hsum, hhalf⟩ := weightSum_ge_half hn h
  obtain ⟨hraw, hle⟩ := rawWeight_le_one h d
  have hone := rawWeight_zero h
  exact normalised_mono hsum hhalf hraw (rawWeight_le_one h 0).1 (hle.trans_eq hone.symm) hone.le

/-- Settles O24: the words depend on `tapDistance` alone, which the three symmetries keep, and rise to the centre. -/
theorem kernelIsFiniteSymmetricAndPeaked : Obligations.KernelIsFiniteSymmetricAndPeaked := by
  intro n sigma hn h s w i j hi hj
  have hword : ∀ {i j : Nat}, i < s → j < s →
      w i j = (storedWeight n.toNat sigma (tapDistance n.toNat (i, j))).toNat :=
    fun hi hj => congrArg BitVec.toNat (kernelFor_getD (side_mul_self_le hn) sigma hi hj)
  have hsame : ∀ {i' j' : Nat}, i' < s → j' < s → tapDistance n.toNat (i', j') = tapDistance n.toNat (i, j) →
      w i j = w i' j' := by
    intro i' j' hi' hj' hd
    rw [hword hi hj, hword hi' hj', hd]
  have hcentre : n.toNat < s := by omega
  refine and_assoc.mp ⟨?_, hsame (by omega) hj (tapDistance_reflect_row j hi),
    hsame hi (by omega) (tapDistance_reflect_column i hj), hsame hj hi (tapDistance_swap _ i j)⟩
  rw [hword hi hj, hword hcentre hcentre, tapDistance_centre]
  exact storedWeight_le_centre hn h _

end Sys2Proof.Machine
end

section
/-! PROOF. The sum of one output and what it reads (42_convolution_engine.md R88 to R92, R99): the accumulator as
loops over rows and columns, and that an output depends on its own footprint alone. -/

namespace Sys2Proof.Machine

/-! ### The sum (R89, R92) -/

/-- The accumulator as two loops, rows then columns. -/
theorem State.accumulator_eq_rows (s : State) (m : Memory) (p : Sample) :
    s.accumulator m p = (List.range s.kernelSide).foldl (fun acc i =>
      (List.range s.kernelSide).foldl (fun acc j => s.accumulate m p acc (i, j)) acc) (.finite false 0) := by
  simp only [State.accumulator, taps, List.foldl_flatMap, List.foldl_map]

/-- Settles O55: the two loops, each tap being the product that R89 names, by definition. -/
theorem accumulatorIsTheRowMajorSum : Obligations.AccumulatorIsTheRowMajorSum := by
  intro s m x y c _
  have hacc := s.accumulator_eq_rows m ⟨x, y, c⟩
  exact ⟨hacc, congrArg invOfAccumulator hacc⟩

/-- Settles O26: the taps of a 3 × 3 block are nine, in row-major order. -/
theorem fastPathIsTheGenericSum : Obligations.FastPathIsTheGenericSum := by
  intro s m p hks
  have hside : s.kernelSide = 3 := by rw [State.kernelSide, hks]; rfl
  have htaps : taps 3 = [(0, 0), (0, 1), (0, 2), (1, 0), (1, 1), (1, 2), (2, 0), (2, 1), (2, 2)] := by decide
  simp only [State.accumulator, hside, htaps, List.foldl_cons, List.foldl_nil, State.accumulate, State.weight,
    Sample.tap, Nat.mul_comm 3]

/-! ### The footprint (R88 to R90, R99) -/

/-- Outputs of equal kernels over footprints that read alike are equal. -/
theorem State.out_congr {s t : State} {m m' : Memory} {p : Sample} (hks : t.ksize = s.ksize)
    (hkernel : t.kernel = s.kernel)
    (h : ∀ tap ∈ taps s.kernelSide, m.read (s.address (p.tap tap)) = m'.read (t.address (p.tap tap))) :
    s.out m p = t.out m' p := by
  have hside : t.kernelSide = s.kernelSide := by rw [State.kernelSide, hks, State.kernelSide]
  have hweight : t.weight = s.weight := by
    funext tap
    rw [State.weight, hside, hkernel, State.weight]
  refine congrArg invOfAccumulator ?_
  rw [State.accumulator, State.accumulator, hside]
  refine List.foldl_ext _ _ _ fun acc tap htap => ?_
  rw [State.accumulate, State.accumulate, h tap htap, hweight]

/-- Settles O27, by `State.out_congr`. -/
theorem outputDependsOnlyOnItsFootprint : Obligations.OutputDependsOnlyOnItsFootprint := by
  intro s t m m' p hks hkernel h
  refine State.out_congr hks hkernel fun tap htap => ?_
  obtain ⟨hi, hj⟩ := mem_taps.mp htap
  exact h tap.1 tap.2 hi hj

/-- Settles O28: where `(px, py)` is outside the block, no tap of the output reads it. -/
theorem pixelInfluencesOnlyItsUpperLeftBlock : Obligations.PixelInfluencesOnlyItsUpperLeftBlock := by
  intro s m m' px py hsame p hp hdiffer
  by_contra hblock
  refine hdiffer (State.out_congr rfl rfl fun tap htap => hsame _ (hp.tap_inFrame htap) ?_)
  obtain ⟨hi, hj⟩ := mem_taps.mp htap
  rintro ⟨hx, hy⟩
  simp only [Sample.tap] at hx hy
  omega

end Sys2Proof.Machine
end

section
/-! PROOF. The source's in-place sweep (42_convolution_engine.md R91, 90_conflicts.md C5): a footprint reaches right
and down of its output, so that no write of the sweep is read again. -/

namespace Sys2Proof.Machine

/-- The order of the sweep: rows, then columns, then channels. -/
def Sample.Before (q p : Sample) : Prop :=
  q.y < p.y ∨ q.y = p.y ∧ (q.x < p.x ∨ q.x = p.x ∧ q.c < p.c)

/-- No footprint reaches a sample before its output. -/
theorem Sample.Before.ne_tap {q p : Sample} (h : q.Before p) (t : Nat × Nat) : p.tap t ≠ q := by
  rintro rfl
  simp only [Sample.Before, Sample.tap] at h
  omega

/-- The interior is listed in the order of the sweep. -/
theorem State.interior_pairwise_before (s : State) : s.interior.Pairwise Sample.Before := by
  refine List.pairwise_flatMap.mpr ⟨fun y _ => List.pairwise_flatMap.mpr ⟨fun x _ => ?_, ?_⟩, ?_⟩
  · exact List.pairwise_map.mpr (List.pairwise_lt_range.imp fun hc => .inr ⟨rfl, .inr ⟨rfl, hc⟩⟩)
  · refine List.pairwise_lt_range.imp fun hx => ?_
    simp only [List.forall_mem_map]
    exact fun _ _ _ _ => .inr ⟨rfl, .inl hx⟩
  · refine List.pairwise_lt_range.imp fun hy => ?_
    simp only [List.forall_mem_flatMap, List.forall_mem_map]
    exact fun _ _ _ _ _ _ _ _ => .inl hy

/-- Writing an interior sample leaves the outputs after it as they were. -/
theorem State.out_write_of_before {s : State} {m : Memory} (hm : m.wf = true) (hg : s.GeometryOk) {q p : Sample}
    (hq : s.Interior q) (hp : s.Interior p) (hbefore : q.Before p) (v : Byte) :
    s.out (m.write (s.address q) v) p = s.out m p := by
  refine State.out_congr rfl rfl fun tap htap => ?_
  rw [Memory.read_write hm, if_neg fun haddr => hbefore.ne_tap tap
    (State.address_injective hg (hp.tap_inFrame htap) hq.inFrame haddr)]

/-- A sweep over interior samples in order, from a memory whose outputs there are those of the original frame,
writes those outputs. -/
theorem State.sweep_eq_writeAll {s : State} (hg : s.GeometryOk) {l : List Sample}
    (hinterior : ∀ p ∈ l, s.Interior p) (hsorted : l.Pairwise Sample.Before) {m : Memory} (hm : m.wf = true)
    (hout : ∀ p ∈ l, s.out m p = s.out s.mem p) :
    l.foldl (fun m p => Memory.write m (s.address p) (s.out m p)) m =
      m.writeAll (l.map fun p => (s.address p, s.out s.mem p)) := by
  induction l generalizing m with
  | nil => rfl
  | cons q l ih =>
    obtain ⟨hbefore, hsorted⟩ := List.pairwise_cons.mp hsorted
    obtain ⟨hq, hinterior⟩ := List.forall_mem_cons.mp hinterior
    obtain ⟨hqout, hout⟩ := List.forall_mem_cons.mp hout
    rw [List.foldl_cons, List.map_cons, Memory.writeAll_cons, hqout]
    refine ih hinterior hsorted (Memory.write_wf hm _ _) fun p hp => ?_
    rw [State.out_write_of_before hm hg hq (hinterior p hp) (hbefore p hp), hout p hp]

/-- Settles O17: the sweep over the whole interior, from the original frame. -/
theorem inPlaceSweepGivesTheSameFrame : Obligations.InPlaceSweepGivesTheSameFrame := by
  intro s hm hg
  exact State.sweep_eq_writeAll hg (fun _ => State.mem_interior.mp) s.interior_pairwise_before hm fun _ _ => rfl

end Sys2Proof.Machine
end

section
/-! PROOF. `SET_GEOMETRY` (42_convolution_engine.md R85), and the checks and the frame of `PROCESS_FRAME` (R87, R93 to
R95, R97). -/

namespace Sys2Proof.Machine

/-! ### `SET_GEOMETRY` -/

theorem execSetGeometry_of_zero {s : State} (h : s.latch.arg0.toNat = 0 ∨ s.latch.arg1.toNat = 0) :
    execSetGeometry s = .next (s.finished 0x03#8) :=
  if_pos h

/-- A non-zero size that is too large, or a stride that is not three times the width, is an invalid geometry. -/
theorem execSetGeometry_of_invalid {s : State} (hw : s.latch.arg0.toNat ≠ 0) (hh : s.latch.arg1.toNat ≠ 0)
    (h : 0xFFFF < s.latch.arg0.toNat ∨ 0xFFFF < s.latch.arg1.toNat ∨
      s.latch.arg2.toNat ≠ 3 * s.latch.arg0.toNat) :
    execSetGeometry s = .next (s.finished 0x04#8) := by
  refine (if_neg (not_or.mpr ⟨hw, hh⟩)).trans ?_
  by_cases hlarge : 0xFFFF < s.latch.arg0.toNat ∨ 0xFFFF < s.latch.arg1.toNat
  · exact if_pos hlarge
  · exact (if_neg hlarge).trans (if_pos ((or_assoc.mpr h).resolve_left hlarge))

theorem execSetGeometry_of_ok {s : State} (hw : 1 ≤ s.latch.arg0.toNat) (hw' : s.latch.arg0.toNat ≤ 0xFFFF)
    (hh : 1 ≤ s.latch.arg1.toNat) (hh' : s.latch.arg1.toNat ≤ 0xFFFF)
    (hstride : s.latch.arg2.toNat = 3 * s.latch.arg0.toNat) :
    execSetGeometry s = .next
      ((s.storeGeometry s.latch.arg0.toNat s.latch.arg1.toNat s.latch.arg2.toNat).finished 0x00#8) := by
  have hpos : ¬(s.latch.arg0.toNat = 0 ∨ s.latch.arg1.toNat = 0) := by omega
  have hfit : ¬(0xFFFF < s.latch.arg0.toNat ∨ 0xFFFF < s.latch.arg1.toNat) := by omega
  exact (if_neg hpos).trans ((if_neg hfit).trans (if_neg (not_not.mpr hstride)))

/-- The operands in the fields they are stored in. -/
theorem State.storeGeometry_operands (s : State) :
    s.storeGeometry s.latch.arg0.toNat s.latch.arg1.toNat s.latch.arg2.toNat =
      { s with
        width := s.latch.arg0.truncate 16
        height := s.latch.arg1.truncate 16
        stride := s.latch.arg2
        geomValid := true } := by
  rw [State.storeGeometry, BitVec.ofNat_toNat, BitVec.ofNat_toNat, BitVec.ofNat_toNat, BitVec.setWidth_eq]

/-- Settles O12: the three cases of the checks, and the row of `SET_GEOMETRY` in the opcode map. -/
theorem setGeometryStoresOrRejects : Obligations.SetGeometryStoresOrRejects := by
  refine ⟨fun s => ⟨execSetGeometry_of_zero, execSetGeometry_of_invalid, fun hw hw' hh hh' hstride => ?_⟩,
    fun w hw => decode_eq_setGeometry_iff.mpr ?_⟩
  · rw [← State.storeGeometry_operands]
    exact execSetGeometry_of_ok hw hw' hh hh' hstride
  · have hmask : w &&& 0xFFFFFFFF#32 = w := BitVec.and_allOnes
    rwa [hmask] at hw

/-! ### The checks of `PROCESS_FRAME` (R94, R106) -/

/-- Without a geometry a frame that is not the identity ends with 0x03. -/
theorem State.frameEndsWith_of_no_geometry {s : State} (hks : s.ksize ≠ 0#2) (hgeom : s.geomValid = false) :
    s.FrameEndsWith 0x03#8 := by
  have hcode : s.frameCode = .missingGeometry := by rw [State.frameCode, if_neg hks, if_pos hgeom]
  have hend := State.frameEndsWith_of_not_accepted (s := s) fun hacc =>
    absurd (hgeom.symm.trans hacc.2.1) (by decide)
  rwa [hcode] at hend

/-- A buffer that is too short, or passes the top of the address space, ends the frame with 0x05. -/
theorem State.frameEndsWith_of_bad_buffer {s : State} (hks : s.ksize ≠ 0#2) (hgeom : s.geomValid = true)
    (hbuf : s.lengthOperand < s.frameBytes ∨ 2 ^ 32 < s.baseOperand + s.frameBytes) :
    s.FrameEndsWith 0x05#8 := by
  have hcode : s.frameCode = .buffer := by
    rw [State.frameCode, if_neg hks, if_neg (by simp [hgeom]), if_pos hbuf]
  have hnot : ¬s.FrameAccepted := by
    rintro ⟨-, -, hlen, htop⟩
    omega
  have hend := State.frameEndsWith_of_not_accepted hnot
  rwa [hcode] at hend

/-- `need` of a legal geometry is below `3 · 2^16 · 2^16`. -/
theorem State.GeometryOk.frameBytes_lt {s : State} (hg : s.GeometryOk) : s.frameBytes < 2 ^ 35 := by
  have hstride : s.stride.toNat ≤ 3 * 2 ^ 16 := by
    have hwidth := s.width.isLt
    rw [hg]
    omega
  calc s.frameBytes ≤ 3 * 2 ^ 16 * 2 ^ 16 := Nat.mul_le_mul hstride s.height.isLt.le
    _ < 2 ^ 35 := by decide

/-- Every sample of an accepted frame has an address that exists (R94). -/
theorem State.InFrame.address_lt {s : State} {p : Sample} (hp : s.InFrame p) (hg : s.GeometryOk)
    (hacc : s.FrameAccepted) : s.address p < 2 ^ 32 := by
  obtain ⟨-, hhigh⟩ := State.inFrameRegion_iff.mp (hp.address_inRegion hg)
  obtain ⟨-, -, -, htop⟩ := hacc
  exact hhigh.trans_le htop

/-- Settles O15, clause by clause. -/
theorem processFrameChecksGeometryAndBuffer : Obligations.ProcessFrameChecksGeometryAndBuffer := by
  refine fun s hks => ⟨State.frameEndsWith_of_no_geometry hks, State.frameEndsWith_of_bad_buffer hks,
    State.GeometryOk.frameBytes_lt, fun hacc hg p hp => ?_⟩
  obtain ⟨hlow, hhigh⟩ := State.inFrameRegion_iff.mp (hp.address_inRegion hg)
  exact ⟨hlow, hhigh, hp.address_lt hg hacc⟩

/-! ### A memory error (R95) -/

/-- Settles O18: a memory error leaves the unspecified bytes free, which over plain memory are the interior's. -/
theorem busErrorLeavesInteriorUnspecified : Obligations.BusErrorLeavesInteriorUnspecified := by
  intro s hm hg hacc hplain hbus
  have h := execProcessFrame_of_accepted hacc
  have hcode := execProcessFrame_completed h
  rw [State.frameCode_of_accepted hacc, if_pos hbus] at hcode
  obtain ⟨hhost, hparams, hgeom, -⟩ := execProcessFrame_registers h
  obtain ⟨hkernel, hdirty⟩ := execProcessFrame_kernel_of_accepted hacc h
  have hread := State.convolved_read_of_free (s := s.ensureKernel) (by simpa using hm) (.inl (by simpa using hbus))
  obtain ⟨hfree, hkeep⟩ := State.interior_free_of_read (before := s.mem) (after := s.ensureKernel.convolve.mem)
    hplain (by simpa using hread)
  exact ⟨_, h, hcode, hhost, hparams, hgeom, hkernel, hdirty,
    fun p hp => hfree p hp (hp.inFrame.address_lt hg hacc), hkeep⟩

/-! ### What no result of `PROCESS_FRAME` changes (R87, R97) -/

/-- Settles O21: a sample of the last rows or columns is not interior, and no interior sample has its address. -/
theorem lastRowsAndColumnsPassThrough : Obligations.LastRowsAndColumnsPassThrough := by
  intro s t hm hg hplain h p hp hlast
  have hnot : ¬s.Interior p := by
    rintro ⟨hy, hx, -⟩
    omega
  have hnone : ∀ q, s.Interior q → s.address q ≠ s.address p := fun q hq haddr =>
    hnot (State.address_injective hg hq.inFrame hp haddr ▸ hq)
  exact execProcessFrame_read_of_settled hm hg h (State.not_unsettled_of_plain hplain hnone) hnone

/-- A frame no larger than the kernel side has no interior (R87). -/
theorem State.interior_eq_nil {s : State} (h : s.height.toNat ≤ s.kernelSide ∨ s.width.toNat ≤ s.kernelSide) :
    s.interior = [] := by
  refine List.eq_nil_iff_forall_not_mem.mpr fun p hp => ?_
  obtain ⟨hy, hx, -⟩ := State.mem_interior.mp hp
  omega

/-- A frame with no interior makes no access, so none errs. -/
theorem State.busError_of_interior_nil {s : State} (h : s.interior = []) : s.busError = false := by
  have hcount : s.accessCount = 0 := by rw [State.accessCount, h, List.length_nil, Nat.zero_mul]
  simp [State.busError, hcount]

/-- Over plain memory a convolution with no interior writes nothing, whether its duties are kept or not. -/
theorem State.convolved_mem_of_interior_nil {s : State} (h : s.interior = []) (hplain : s.frameOnDevice = false) :
    s.convolved.mem = s.mem := by
  have hfree : s.unspecifiedBytes = [] := by simp [State.unspecifiedBytes, hplain, State.interiorAddresses, h]
  have hout : s.outputs = [] := by rw [State.outputs, h, List.map_nil]
  unfold State.convolved
  split
  · rw [hfree]
    rfl
  · rw [hout]
    rfl

/-- Settles O22: the interior is empty, before and after the recompute. -/
theorem emptyInteriorWritesNothing : Obligations.EmptyInteriorWritesNothing := by
  intro s hacc hplain hsmall
  have h := execProcessFrame_of_accepted hacc
  have hnil : s.interior = [] := State.interior_eq_nil hsmall
  have hcode := execProcessFrame_completed h
  rw [State.frameCode_of_accepted hacc, State.busError_of_interior_nil hnil] at hcode
  have hmem := State.convolved_mem_of_interior_nil (s := s.ensureKernel) (by simpa using hnil)
    (by simpa using State.frameOnDevice_eq_false_iff.mpr hplain)
  exact ⟨_, h, hcode, by simpa using hmem, (execProcessFrame_kernel_of_accepted hacc h).2⟩

end Sys2Proof.Machine
end

section
/-! PROOF. How every command ends (60_exceptions.md R101 to R103, R107), and the interrupt output (R109). -/

namespace Sys2Proof.Machine

/-! ### The result codes of each command (R101) -/

theorem execConfigure_result_mem {ks : Nat} {s t : State} (h : execConfigure ks s = .next t) :
    t.result ∈ [0x00#8, 0x02#8] := by
  rcases execConfigure_cases ks s with hc | hc <;> obtain rfl := Host.Outcome.next.inj (hc.symm.trans h)
  · exact .tail _ (.head _)
  · exact .head _

/-- The three cases of R85: a zero size, an invalid geometry, a geometry stored. -/
theorem execSetGeometry_result_mem {s t : State} (h : execSetGeometry s = .next t) :
    t.result ∈ [0x00#8, 0x03#8, 0x04#8] := by
  by_cases hzero : s.latch.arg0.toNat = 0 ∨ s.latch.arg1.toNat = 0
  · obtain rfl := Host.Outcome.next.inj ((execSetGeometry_of_zero hzero).symm.trans h)
    exact .tail _ (.head _)
  obtain ⟨hw, hh⟩ := not_or.mp hzero
  by_cases hbad : 0xFFFF < s.latch.arg0.toNat ∨ 0xFFFF < s.latch.arg1.toNat ∨
      s.latch.arg2.toNat ≠ 3 * s.latch.arg0.toNat
  · obtain rfl := Host.Outcome.next.inj ((execSetGeometry_of_invalid hw hh hbad).symm.trans h)
    exact .tail _ (.tail _ (.head _))
  · have hok := execSetGeometry_of_ok (s := s) (by omega) (by omega) (by omega) (by omega) (by omega)
    obtain rfl := Host.Outcome.next.inj (hok.symm.trans h)
    exact .head _

theorem State.frameCode_mem (s : State) : s.frameCode ∈ [.ok, .missingGeometry, .buffer, .bus] := by
  unfold State.frameCode
  split_ifs <;> decide

theorem execProcessFrame_result_mem {s t : State} (h : execProcessFrame s = .next t) :
    t.result ∈ [0x00#8, 0x03#8, 0x05#8, 0x06#8] := by
  rw [(execProcessFrame_completed h).1]
  exact List.mem_map_of_mem (f := ResultCode.code) s.frameCode_mem

/-- Settles O7: every command leaves the block idle (`exec_idle`), each with a code of its own row. -/
theorem everyCommandCompletes : Obligations.EveryCommandCompletes := by
  intro i s
  obtain ⟨t, h, hbusy, hdone⟩ := exec_idle i s
  refine ⟨t, h, hbusy, hdone, ?_⟩
  cases i with
  | configure ks => exact execConfigure_result_mem h
  | setGeometry => exact execSetGeometry_result_mem h
  | processFrame => exact execProcessFrame_result_mem h

/-! ### The interrupt output (R109) -/

theorem State.irq_eq_registers (s : State) :
    s.irq = ((s.readReg .ctrl).getLsbD 0 && (s.readReg .events).getLsbD 0) := by
  rw [State.readReg, State.readReg, ctrlWord_getLsbD, eventsWord_getLsbD, if_pos rfl, if_pos rfl, State.irq]

/-- A `CTRL` write enables `DONE` or masks it, by its bit 0. -/
theorem State.writeReg_ctrl_irq (s : State) (v : Word) :
    (s.writeReg v .ctrl).irq = (v.getLsbD 0 && s.done) := rfl

/-- An `EVENTS` write with bit 0 set clears `DONE` (10_state.md R20). -/
theorem State.writeReg_events_done {s : State} {v : Word} (hv : v.getLsbD 0 = true) :
    (s.writeReg v .events).done = false := by
  rw [State.writeReg, clearedBy, hv, Bool.not_true, Bool.and_false]

theorem State.irq_of_not_done {s : State} (h : s.done = false) : s.irq = false := by
  rw [State.irq, h, Bool.and_false]

/-- Settles O45, clause by clause: the interrupt is low wherever `DONE` is. -/
theorem interruptFollowsDone : Obligations.InterruptFollowsDone := by
  refine ⟨State.irq_eq_registers, fun _ _ => rfl, fun s => ?_,
    fun s => ⟨State.irq_of_not_done s.resetBlock_done, s.resetBlock_done, s.resetBlock_irqEn⟩⟩
  have hdone : (s.writeReg 1#32 .events).done = false := State.writeReg_events_done rfl
  exact ⟨s.writeReg_ctrl_irq 0#32, rfl, s.writeReg_ctrl_irq 1#32, State.irq_of_not_done hdone, hdone⟩

end Sys2Proof.Machine
end
